-- ==== Sys2Proof/Word.lean ====
section
/-! DEFINITION. The widths RA-CORE's values have (00_scope.md R8, R9; 30_encoding.md R121). -/

namespace Sys2Proof

/-- 8 bits: a byte of POOL or STAGEBUF, a u8 field. -/
abbrev Byte := BitVec 8

/-- 16 bits: a u16 field or counter. -/
abbrev Half := BitVec 16

/-- 32 bits: a word of REGS, a time sample, a 32-bit counter. -/
abbrev Word := BitVec 32

/-- 64 bits: a transaction word T (R121). -/
abbrev TransWord := BitVec 64

end Sys2Proof
end

