-- ==== Sys2Proof/Syntax.lean ====
section
/-! DEFINITION. The transactions of RA-CORE: one constructor for each row of spec/opcode_table.json. -/

namespace Sys2Proof

/-- The two agents (60_exceptions.md R320). -/
inductive Agent where
  | producer | consumer
  deriving DecidableEq, Repr

/-- The transactions and commands. Reserved bits (R128) are no operands, nor is C[15:8] of a command
other than CONFIGURE (R129; log 16). -/
inductive Instr where
  /-- FEED (R122): the received bit and the time sample. -/
  | feed (b : Bool) (t : Word)
  /-- REG_WRITE (R123) to an offset other than CMD's. -/
  | regWrite (off : BitVec 12) (wdata : Word)
  /-- CMD_NOP (R130, op 0). -/
  | cmdNop
  /-- CMD_OPEN (R130, op 1). -/
  | cmdOpen
  /-- CMD_CONFIGURE (R130, op 2) with its count (R131). -/
  | cmdConfigure (count : Byte)
  /-- A reserved command, op 3 (R132). -/
  | cmdIllegal3
  /-- A reserved command, op 4 to 7 (R132). -/
  | cmdIllegal4To7 (op : BitVec 4)
  /-- A reserved command, op 8 to F (R132). -/
  | cmdIllegal8ToF (op : BitVec 4)
  /-- REG_READ (R124). -/
  | regRead (off : BitVec 12)
  /-- POOL_READ, size code 0 (R125, R141). -/
  | poolRead8 (addr : BitVec 13)
  /-- POOL_READ, size code 1. -/
  | poolRead16 (addr : BitVec 13)
  /-- POOL_READ, size code 2. -/
  | poolRead32 (addr : BitVec 13)
  /-- POOL_READ, size code 3 (reserved: always POOL_ALIGN). -/
  | poolReadSz3 (addr : BitVec 13)
  /-- POOL_WRITE, size code 0 (R126). -/
  | poolWrite8 (addr : BitVec 13) (v : Byte)
  /-- POOL_WRITE, size codes 1 to 3 (R141: always POOL_ALIGN). -/
  | poolWriteBadSz (sz : BitVec 2) (addr : BitVec 13) (v : Byte)
  deriving DecidableEq, Repr

end Sys2Proof
end

