-- ==== Sys2Proof/WellFormed.lean ====
section
/-! DEFINITION. Which terms of Instr spell a row of spec/opcode_table.json: the fields a row fixes. -/

namespace Sys2Proof

/-- The constraints of the table's rows: REG_WRITE is "Any off other than 0x000", the reserved command rows fix the
high bits of `op`, and POOL_WRITE_BADSZ is a POOL_WRITE with sz in 1..3. -/
def Instr.wellFormed : Instr → Bool
  | .feed _ _ => true
  | .regWrite off _ => decide (off ≠ 0)
  | .cmdNop => true
  | .cmdOpen => true
  | .cmdConfigure _ => true
  | .cmdIllegal3 => true
  | .cmdIllegal4To7 op => decide (4 ≤ op.toNat ∧ op.toNat < 8)
  | .cmdIllegal8ToF op => decide (8 ≤ op.toNat)
  | .regRead _ => true
  | .poolRead8 _ => true
  | .poolRead16 _ => true
  | .poolRead32 _ => true
  | .poolReadSz3 _ => true
  | .poolWrite8 _ _ => true
  | .poolWriteBadSz sz _ _ => decide (sz ≠ 0)

end Sys2Proof
end

