-- ==== Sys2Proof/Decode.lean ====
section
/-! DEFINITION. Decoding a transaction word (30_encoding.md R121 to R132, R141), the encoder, and the opcode table's
rows as data. Bits marked reserved are ignored (R128). -/

namespace Sys2Proof

/-- Why a word is no transaction (R127). -/
inductive DecodeError where
  /-- T[63:60] is 0x0 or 0x6..0xF. -/
  | reservedKind (kind : BitVec 4)
  deriving DecidableEq, Repr

/-- R130: the command word C of a REG_WRITE to CMD. C[15:8] counts for CONFIGURE alone (R129; log 16). -/
def decodeCommand (c : Word) : Instr :=
  let op := c.extractLsb' 0 4
  if op = 0x0 then .cmdNop
  else if op = 0x1 then .cmdOpen
  else if op = 0x2 then .cmdConfigure (c.extractLsb' 8 8)
  else if op = 0x3 then .cmdIllegal3
  else if op.toNat < 8 then .cmdIllegal4To7 op
  else .cmdIllegal8ToF op

/-- R125, R141: a POOL_READ by its size code. -/
def decodePoolRead (sz : BitVec 2) (addr : BitVec 13) : Instr :=
  if sz = 0 then .poolRead8 addr
  else if sz = 1 then .poolRead16 addr
  else if sz = 2 then .poolRead32 addr
  else .poolReadSz3 addr

/-- R126, R141: a POOL_WRITE by its size code. -/
def decodePoolWrite (sz : BitVec 2) (addr : BitVec 13) (v : Byte) : Instr :=
  if sz = 0 then .poolWrite8 addr v else .poolWriteBadSz sz addr v

/-- R121: the kind in T[63:60] and the fields at fixed places (R122 to R126). Total; a reserved kind is refused by
name (R127). -/
def decode (w : TransWord) : Except DecodeError Instr :=
  let kind := w.extractLsb' 60 4
  if kind = 0x1 then .ok (.feed (w.getLsbD 32) (w.extractLsb' 0 32))
  else if kind = 0x2 then
    if w.extractLsb' 32 12 = 0 then .ok (decodeCommand (w.extractLsb' 0 32))
    else .ok (.regWrite (w.extractLsb' 32 12) (w.extractLsb' 0 32))
  else if kind = 0x3 then .ok (.regRead (w.extractLsb' 32 12))
  else if kind = 0x4 then .ok (decodePoolRead (w.extractLsb' 48 2) (w.extractLsb' 32 13))
  else if kind = 0x5 then
    .ok (decodePoolWrite (w.extractLsb' 48 2) (w.extractLsb' 32 13) (w.extractLsb' 0 8))
  else .error (.reservedKind kind)

/-- `v << pos` in a transaction word (R145). -/
def wordField {n : Nat} (v : BitVec n) (pos : Nat) : TransWord := v.setWidth 64 <<< pos

/-- R122, R145: `0x1 << 60 | b << 32 | t`. -/
def encodeFeed (b : Bool) (t : Word) : TransWord :=
  wordField 0x1#4 60 ||| wordField (BitVec.ofBool b) 32 ||| wordField t 0

/-- R123, R145: `0x2 << 60 | off << 32 | v`. -/
def encodeRegWrite (off : BitVec 12) (wdata : Word) : TransWord :=
  wordField 0x2#4 60 ||| wordField off 32 ||| wordField wdata 0

/-- R129: a REG_WRITE to CMD (offset 0x000) of a command word: `count << 8 | op`. -/
def encodeCommand (count : Byte) (op : BitVec 4) : TransWord :=
  wordField 0x2#4 60 ||| wordField count 8 ||| wordField op 0

/-- R124, R145: `0x3 << 60 | off << 32`. -/
def encodeRegRead (off : BitVec 12) : TransWord := wordField 0x3#4 60 ||| wordField off 32

/-- R125, R145: `0x4 << 60 | sz << 48 | a << 32`. -/
def encodePoolRead (sz : BitVec 2) (addr : BitVec 13) : TransWord :=
  wordField 0x4#4 60 ||| wordField sz 48 ||| wordField addr 32

/-- R126, R145: `0x5 << 60 | a << 32 | v`, with the size code at its place. -/
def encodePoolWrite (sz : BitVec 2) (addr : BitVec 13) (v : Byte) : TransWord :=
  wordField 0x5#4 60 ||| wordField sz 48 ||| wordField addr 32 ||| wordField v 0

/-- The word of a well-formed instruction, every reserved and ignored bit 0 (R128: "An assembler writes them as 0"). -/
def encode : Instr → TransWord
  | .feed b t => encodeFeed b t
  | .regWrite off wdata => encodeRegWrite off wdata
  | .cmdNop => encodeCommand 0 0x0
  | .cmdOpen => encodeCommand 0 0x1
  | .cmdConfigure count => encodeCommand count 0x2
  | .cmdIllegal3 => encodeCommand 0 0x3
  | .cmdIllegal4To7 op => encodeCommand 0 op
  | .cmdIllegal8ToF op => encodeCommand 0 op
  | .regRead off => encodeRegRead off
  | .poolRead8 addr => encodePoolRead 0 addr
  | .poolRead16 addr => encodePoolRead 1 addr
  | .poolRead32 addr => encodePoolRead 2 addr
  | .poolReadSz3 addr => encodePoolRead 3 addr
  | .poolWrite8 addr v => encodePoolWrite 0 addr v
  | .poolWriteBadSz sz addr v => encodePoolWrite sz addr v

/-- Which agent's interface issues a transaction (R120). -/
def Instr.agent : Instr → Agent
  | .feed _ _ => .producer
  | .regWrite _ _ => .producer
  | .cmdNop => .producer
  | .cmdOpen => .producer
  | .cmdConfigure _ => .producer
  | .cmdIllegal3 => .producer
  | .cmdIllegal4To7 _ => .producer
  | .cmdIllegal8ToF _ => .producer
  | .regRead _ => .producer
  | .poolRead8 _ => .consumer
  | .poolRead16 _ => .consumer
  | .poolRead32 _ => .consumer
  | .poolReadSz3 _ => .consumer
  | .poolWrite8 _ _ => .consumer
  | .poolWriteBadSz _ _ _ => .consumer

/-- One row of spec/opcode_table.json: a word w is of the row when `w &&& mask = pattern`, and of two rows that fit
the one with the more specific mask wins. -/
structure OpcodeRow where
  mnemonic : String
  pattern : TransWord
  mask : TransWord
  deriving DecidableEq, Repr

/-- spec/opcode_table.json, row by row. -/
def opcodeRows : List OpcodeRow :=
  [ ⟨"FEED", 0x1000000000000000, 0xF000000000000000⟩,
    ⟨"REG_WRITE", 0x2000000000000000, 0xF000000000000000⟩,
    ⟨"CMD_NOP", 0x2000000000000000, 0xF0000FFF0000000F⟩,
    ⟨"CMD_OPEN", 0x2000000000000001, 0xF0000FFF0000000F⟩,
    ⟨"CMD_CONFIGURE", 0x2000000000000002, 0xF0000FFF0000000F⟩,
    ⟨"CMD_ILLEGAL_3", 0x2000000000000003, 0xF0000FFF0000000F⟩,
    ⟨"CMD_ILLEGAL_4_7", 0x2000000000000004, 0xF0000FFF0000000C⟩,
    ⟨"CMD_ILLEGAL_8_F", 0x2000000000000008, 0xF0000FFF00000008⟩ ] ++
  [ ⟨"REG_READ", 0x3000000000000000, 0xF000000000000000⟩,
    ⟨"POOL_READ8", 0x4000000000000000, 0xF003000000000000⟩,
    ⟨"POOL_READ16", 0x4001000000000000, 0xF003000000000000⟩,
    ⟨"POOL_READ32", 0x4002000000000000, 0xF003000000000000⟩,
    ⟨"POOL_READ_SZ3", 0x4003000000000000, 0xF003000000000000⟩,
    ⟨"POOL_WRITE8", 0x5000000000000000, 0xF003000000000000⟩,
    ⟨"POOL_WRITE_BADSZ", 0x5000000000000000, 0xF000000000000000⟩ ]

/-- The table's mnemonic of each constructor. -/
def Instr.mnemonic : Instr → String
  | .feed _ _ => "FEED"
  | .regWrite _ _ => "REG_WRITE"
  | .cmdNop => "CMD_NOP"
  | .cmdOpen => "CMD_OPEN"
  | .cmdConfigure _ => "CMD_CONFIGURE"
  | .cmdIllegal3 => "CMD_ILLEGAL_3"
  | .cmdIllegal4To7 _ => "CMD_ILLEGAL_4_7"
  | .cmdIllegal8ToF _ => "CMD_ILLEGAL_8_F"
  | .regRead _ => "REG_READ"
  | .poolRead8 _ => "POOL_READ8"
  | .poolRead16 _ => "POOL_READ16"
  | .poolRead32 _ => "POOL_READ32"
  | .poolReadSz3 _ => "POOL_READ_SZ3"
  | .poolWrite8 _ _ => "POOL_WRITE8"
  | .poolWriteBadSz _ _ _ => "POOL_WRITE_BADSZ"

/-- Does a word fit a row? -/
def OpcodeRow.fits (r : OpcodeRow) (w : TransWord) : Bool := w &&& r.mask == r.pattern

/-- Does r's mask look at every bit q's mask looks at? -/
def OpcodeRow.asSpecificAs (r q : OpcodeRow) : Bool := r.mask &&& q.mask == q.mask

/-- The instruction the decoder reads from a word of the opcode table's numbering: every word is 64 bits (R121), so
T is the number itself (log 15). None for a word of more bits and for a reserved kind. -/
def decodeTableWord (nbits w : Nat) : Option Instr :=
  if nbits ≤ 64 then
    match decode (BitVec.ofNat 64 (w % 2 ^ nbits)) with
    | .ok i => some i
    | .error _ => none
  else none

end Sys2Proof
end

