-- ==== Sys2Proof/Config.lean ====
section
/-! DEFINITION. The constants the source fixes (00_scope.md R6), the records that the parameters speak of, the
parameter NPAT_MAX (R7), and the free values: draw() (R14) and the hooks HOOK(n), n not 0 (R12). -/

namespace Sys2Proof

/-- WIN_BITS (R6): the width of the rolling register. -/
abbrev winBits : Nat := 128

/-- POOL_SLOTS (R6): the number of frame buffers. -/
abbrev poolSlots : Nat := 4

/-- BUF_BYTES (R6): the bytes of one frame buffer's `data`, and of the staging buffer. -/
abbrev bufBytes : Nat := 1024

/-- The mode of the engine (10_state.md R33) and a pattern's `dataState` (30_encoding.md R139, R140: the same codes). -/
inductive Mode where
  | hunt | dataRaw | dataUart8N1 | dataBiphaseS
  deriving DecidableEq, Repr

/-- One entry of the installed pattern table (10_state.md R34; widths 00_scope.md R8). -/
structure PatternSpec where
  id : Byte
  p0 : BitVec 64
  p1 : BitVec 64
  lengthBits : Byte
  maxHammingDistance : Byte
  frameLengthBits : Half
  startOffset : Half
  dataState : Mode
  inverted : Bool
  postProcess : Byte
  subBlockBits : Half
  subBlockBytes : Half
  deriving DecidableEq, Repr

/-- 1024 bytes: the staging buffer (R45), the `data` of a publish record (42_buffer_pool.md R240). -/
abbrev Buffer := Vector Byte bufBytes

/-- The parameters a model takes as arguments and no transaction changes (10_state.md R30). -/
structure Params where
  /-- NPAT_MAX (R7): how many descriptors and table entries there are. -/
  npatMax : Nat
  deriving DecidableEq, Repr

/-- R7: 1 to 120 patterns. -/
abbrev Params.wf (p : Params) : Prop := 1 ≤ p.npatMax ∧ p.npatMax ≤ 120

/-- `draw()` (R14): the n-th unconstrained value. Nothing is known of it. Log 4. -/
opaque Config.draw : Nat → Byte

/-- HOOK(n) for n not 0 (R12: OPEN): a total function of the spec, the data, `param` and `rxTime`. Nothing is
known of it. Log 10. -/
opaque Config.freeHook : Byte → PatternSpec → Buffer → Half → Word → Buffer × Half

end Sys2Proof
end

