-- ==== Sys2Proof/Machine/State.lean ====
section
/-! DEFINITION. The state of RA-CORE (10_state.md R30), as plain data, and its value after reset (R80). -/

namespace Sys2Proof.Machine

/-- POOL's bytes: (address, byte), addresses strictly rising, no byte equal to what an unlisted address reads as. -/
abbrev Memory := List Host.Cell

/-- `cfgStatus.result` (R47). -/
inductive CfgResult where
  | none | accepted | rejected | illegalCommand
  deriving DecidableEq, Repr

/-- `cfgStatus.cause` (60_exceptions.md R311; the codes 6..15 are never produced). -/
inductive CfgCause where
  | none | countTooLarge | lengthTooLong | rangeOverflow | subblockMismatch | badDataState
  deriving DecidableEq, Repr

/-- `cfgStatus` (R47). -/
structure CfgStatus where
  result : CfgResult
  cause : CfgCause
  entry : Byte
  deriving DecidableEq, Repr

/-- The transaction error codes (30_encoding.md R143). -/
inductive ErrCode where
  | ok | regAlign | poolAlign
  deriving DecidableEq, Repr

/-- A transaction's response (30_encoding.md R142). -/
structure Response where
  err : ErrCode
  rdata : Word
  deriving DecidableEq, Repr

/-- A pending field write of a publish (42_buffer_pool.md R240, R242). -/
inductive FieldWrite where
  | data (j : Fin bufBytes)
  | opcode
  | param
  | rxTime
  deriving DecidableEq, Repr

/-- The pending publish record (42_buffer_pool.md R240): the target slot, the snapshot, whether the overrun check is
done, and the set W of field writes still to be made (a list with no repeats). -/
structure Publish where
  slot : Fin poolSlots
  opcode : Byte
  param : Half
  rxTime : Word
  data : Buffer
  checked : Bool
  pending : List FieldWrite
  deriving DecidableEq, Repr

/-- One turn of the interleaving (R320, 20_memory.md R103): the producer's, with its free choice among the pending
field writes (R242), or the consumer's. Log 1, log 2. -/
inductive Turn where
  | producer (pick : Nat)
  | consumer
  deriving DecidableEq, Repr

/-- Everything RA-CORE holds (R30), then the parameters and the model's own fields (logs 1 to 4, 9). -/
structure State where
  /-- R32: the most recently received 128 bits, bit 0 the newest. -/
  window : BitVec winBits
  /-- R33. -/
  mode : Mode
  /-- R34: the installed entries; `patCount` is the list's length (log 8). -/
  table : List PatternSpec
  /-- R35: the active pattern's index, or none. -/
  act : Option Nat
  /-- R36. -/
  bitCount : Half
  /-- R37. -/
  subCount : Half
  /-- R38. -/
  base : Half
  /-- R39: 0 the start bit, 1..8 data bits, 9 the stop bit. -/
  uartPhase : Fin 10
  /-- R40: the first half-bit sample, if one is held. -/
  half : Option Bool
  /-- R41. -/
  rxTimeLatch : Word
  /-- R42. -/
  curParam : Half
  /-- R43. -/
  overrunCount : Word
  /-- R44. -/
  framingErrCount : Word
  /-- R45: STAGEBUF, all 1024 bytes (log 23). -/
  stage : Buffer
  /-- R46: OVERFLOW, sticky. -/
  fault : Bool
  /-- R47. -/
  cfgStatus : CfgStatus
  /-- R48: word w of descriptor i at key 8 * i + w; a word not listed is 0. -/
  sdesc : List (Nat × Word)
  /-- R49, R92, R93: POOL, the four slots. -/
  pool : Memory
  /-- R50. -/
  writeIndex : Word
  /-- R51: the pending publish, or none. -/
  pub : Option Publish
  /-- R7: NPAT_MAX, which no step writes (log 9). -/
  params : Params
  /-- How many values draw() has given (log 4). -/
  draws : Nat
  /-- The turns to come, first the next (log 1). -/
  turns : List Turn
  /-- The free choice of the current producer turn (log 2). -/
  pick : Nat
  /-- The words presented to the producer, first the next (R321; log 3). -/
  producerIn : List TransWord
  /-- The words presented to the consumer, first the next (R322; log 3). -/
  consumerIn : List TransWord
  /-- The response to the producer's last completed transaction (R142; log 3). -/
  producerResp : Option Response
  /-- The response to the consumer's last completed transaction (R142; log 3). -/
  consumerResp : Option Response
  deriving DecidableEq, Repr

/-- Why the machine stops with a fault. No fault is the spec's own: its errors are responses, status fields and
counters (60_exceptions.md R310). -/
inductive Fault where
  /-- Raised by FEED in a DATA mode when `act` names no installed entry. Invariant 1 of R52 rules such states out, so no
  run from reset reaches it. Safe. Log 11. -/
  | noActivePattern
  deriving DecidableEq, Repr

/-- Why a step has no meaning. -/
inductive Refusal where
  /-- Raised by an arm of exec whose instruction has no meaning yet. Safe. -/
  | notModelled (mnemonic : String)
  /-- Raised by a step that is presented a word of kind 0x0 or 0x6..0xF (R127: "A decoder refuses it, and the model gives
  it no step"). Safe. Log 14. -/
  | reservedKind (kind : BitVec 4)
  /-- Raised by a step that is presented a word the agent's interface cannot issue (R120, R323). Safe. Log 13. -/
  | wrongPort
  deriving DecidableEq, Repr

/-- The outcome of an instruction or a step. -/
abbrev Result := Host.Outcome State Fault Refusal

/-- The state after power-on reset (R80, R340, R341). The elements the spec leaves unspecified and the model's own
fields have the values of logs 1 to 7 and 9. -/
def State.reset : State where
  window := 0
  mode := .hunt
  table := []
  act := none
  bitCount := 0
  subCount := 0
  base := 0
  uartPhase := 0
  half := none
  rxTimeLatch := 0
  curParam := 0
  overrunCount := 0
  framingErrCount := 0
  stage := Vector.replicate bufBytes 0
  fault := false
  cfgStatus := ⟨.none, .none, 0⟩
  sdesc := []
  pool := []
  writeIndex := 0
  pub := none
  params := ⟨16⟩
  draws := 0
  turns := []
  pick := 0
  producerIn := []
  consumerIn := []
  producerResp := none
  consumerResp := none

end Sys2Proof.Machine
end

