-- ==== Sys2Proof/Machine/Ops.lean ====
section
/-! DEFINITION. The named operations over memory and registers: sparse cells in one canonical form, POOL's bytes,
the staging buffer, responses and errors (60_exceptions.md R312), the end of a frame, and reset (R340). -/

namespace Sys2Proof.Machine

/-! ### Cells: sparse storage by key -/

/-- The value at key k: the first entry of that key, or d for a key not listed. -/
def cellsRead {β : Type} (d : β) : List (Nat × β) → Nat → β
  | [], _ => d
  | c :: rest, k => if c.1 = k then c.2 else cellsRead d rest k

/-- Every entry but those of key k. -/
def cellsErase {β : Type} (m : List (Nat × β)) (k : Nat) : List (Nat × β) :=
  m.filter fun c => decide (c.1 ≠ k)

/-- Put an entry before the first entry of a greater key. -/
def cellsInsert {β : Type} : List (Nat × β) → Nat → β → List (Nat × β)
  | [], k, v => [(k, v)]
  | c :: rest, k, v => if k < c.1 then (k, v) :: c :: rest else c :: cellsInsert rest k v

/-- Write v at key k, keeping the canonical form: writing d removes the entry. -/
def cellsWrite {β : Type} [DecidableEq β] (d : β) (m : List (Nat × β)) (k : Nat) (v : β) : List (Nat × β) :=
  if v = d then cellsErase m k else cellsInsert (cellsErase m k) k v

/-- The canonical form: keys strictly rising, no entry equal to d. -/
def cellsWf {β : Type} [DecidableEq β] (d : β) (m : List (Nat × β)) : Bool :=
  decide (m.Pairwise fun x y => x.1 < y.1) && m.all fun c => decide (c.2 ≠ d)

/-! ### POOL (20_memory.md R92 to R96) -/

/-- What a byte of POOL that nothing has written reads as (log 7). -/
def Memory.unlisted : Byte := 0x00

/-- POOL's canonical form. -/
def Memory.wf (m : Memory) : Bool := cellsWf Memory.unlisted m

/-- The stored byte at a POOL address. -/
def Memory.readByte (m : Memory) (a : Nat) : Byte := cellsRead Memory.unlisted m a

/-- Store one byte at a POOL address. -/
def Memory.writeByte (m : Memory) (a : Nat) (v : Byte) : Memory := cellsWrite Memory.unlisted m a v

/-- `MemWrite(POOL, a, n, v)` (R14, R96): little-endian. -/
def Memory.writeLE (m : Memory) (a : Nat) : Nat → Word → Memory
  | 0, _ => m
  | n + 1, v => Memory.writeLE (m.writeByte a (v.setWidth 8)) (a + 1) n (v >>> 8)

/-- R92: where slot s begins. -/
def slotBase (s : Fin poolSlots) : Nat := 0x800 * s.val

/-- R93: the address of slot s's `valid` byte. -/
def validAddr (s : Fin poolSlots) : Nat := slotBase s + 0x400

/-- R93: the address of slot s's `opcode` byte. -/
def opcodeAddr (s : Fin poolSlots) : Nat := slotBase s + 0x401

/-- R93: the address of slot s's `param`. -/
def paramAddr (s : Fin poolSlots) : Nat := slotBase s + 0x402

/-- R93: the address of slot s's `rxTime`. -/
def rxTimeAddr (s : Fin poolSlots) : Nat := slotBase s + 0x404

/-- R93: the address of `data[j]` of slot s. -/
def dataAddr (s : Fin poolSlots) (j : Fin bufBytes) : Nat := slotBase s + j.val

/-- R93, R94: offsets 0x408..0x7FF of a slot are reserved. -/
def isReservedOffset (a : Nat) : Bool := decide (0x408 ≤ a % 0x800)

/-- The byte a POOL access sees (R247): 0x00 at a reserved offset (R94), else the field's byte. -/
def Memory.poolByte (m : Memory) (a : Nat) : Byte := if isReservedOffset a then 0x00 else m.readByte a

/-- `MemRead(POOL, a, n)` (R14, R96): the sum of `byte(a+k) × 256^k`. -/
def Memory.readLE (m : Memory) (a : Nat) : Nat → Word
  | 0 => 0
  | n + 1 => (m.poolByte a).setWidth 32 ||| (Memory.readLE m (a + 1) n <<< 8)

/-! ### STAGE words (R48) -/

/-- The key of `sdesc[i][w]`. -/
def sdescKey (i w : Nat) : Nat := 8 * i + w

/-- `sdesc[i][w]`; a word nothing has written is 0 (R48: "Reset value: 0 in every word"). -/
def State.sdescWord (s : State) (i w : Nat) : Word := cellsRead 0 s.sdesc (sdescKey i w)

/-- `sdesc[i][w] <- v`. -/
def State.setSdescWord (s : State) (i w : Nat) (v : Word) : State :=
  { s with sdesc := cellsWrite 0 s.sdesc (sdescKey i w) v }

/-! ### The table (R34, R35) -/

/-- `patCount` (R34). -/
def State.patCount (s : State) : Nat := s.table.length

/-- `table[act]`, the active pattern, if `act` names an installed entry (R35). -/
def State.activeSpec (s : State) : Option PatternSpec := s.act.bind fun i => s.table[i]?

/-! ### Free values (R14) -/

/-- 1024 fresh draws, one for each byte. Irreducible, so that elaboration never unrolls the 1024 bytes. -/
@[irreducible] def drawBuffer (n : Nat) : Buffer :=
  ⟨((List.range bufBytes).map fun a => Config.draw (n + a)).toArray, by simp⟩

/-- The staging contents become unspecified (R45): each byte takes a fresh `draw()`. -/
def State.drawStage (s : State) : State :=
  { s with stage := drawBuffer s.draws, draws := s.draws + bufBytes }

/-! ### Responses and errors -/

/-- A transaction of an agent completes with a response (R142). -/
def respond (a : Agent) (r : Response) (s : State) : State :=
  match a with
  | .producer => { s with producerResp := some r }
  | .consumer => { s with consumerResp := some r }

/-- The response (0, 0). -/
def okResponse : Response := ⟨.ok, 0⟩

/-- `raise Error(code)` (R14, R312): the response is (code, 0) and no other state element changes. This is the one way
a transaction of RA-CORE fails; no trap is taken and nothing is saved (R310, R318). -/
def raiseError (a : Agent) (code : ErrCode) (s : State) : Result := .next (respond a ⟨code, 0⟩ s)

/-! ### The end of a frame, and reset -/

/-- HUNT with no active pattern and every frame counter cleared: what completion (R220), an accepted CONFIGURE (R287)
and reset (R340) have in common. -/
def clearFrame (s : State) : State :=
  { s with
    mode := .hunt, act := none, bitCount := 0, subCount := 0, base := 0, uartPhase := 0, half := none, curParam := 0 }

/-- `slot[s].valid <- 0` for s = 0, 1, 2, 3 in that order (R340). -/
def clearAllValid (m : Memory) : Memory :=
  (((m.writeByte (validAddr 0) 0).writeByte (validAddr 1) 0).writeByte (validAddr 2) 0).writeByte (validAddr 3) 0

/-- `reset()` (70_reset_and_hazards.md R340). `stage` becomes unspecified (log 5); the slots' other fields, `pub` and the
model's own queues are as before. -/
def machineReset (s : State) : State :=
  (clearFrame
    { s with
      window := 0
      pool := clearAllValid s.pool
      table := []
      rxTimeLatch := 0
      overrunCount := 0
      framingErrCount := 0
      fault := false
      cfgStatus := ⟨.none, .none, 0⟩
      sdesc := []
      writeIndex := 0 }).drawStage

end Sys2Proof.Machine
end

