-- ==== Sys2Proof/Machine/Flags.lean ====
section
/-! DEFINITION. Codes, status bits and event counters: the mode code (10_state.md R33), `cfgStatus` (R47), the error
codes (30_encoding.md R143), OVERFLOW (R46), the overrun and framing counters (R43, R44), and the words in which the
host reads them (R63 to R78). RA-CORE has no arithmetic flags (R53). -/

namespace Sys2Proof

/-- R33, R139: the 2-bit code of a mode. -/
def Mode.code : Mode → BitVec 2
  | .hunt => 0
  | .dataRaw => 1
  | .dataUart8N1 => 2
  | .dataBiphaseS => 3

/-- R33, R139: the mode of a 2-bit code. -/
def Mode.ofCode (c : BitVec 2) : Mode :=
  if c = 0 then .hunt else if c = 1 then .dataRaw else if c = 2 then .dataUart8N1 else .dataBiphaseS

namespace Machine

/-- R47: 0 NONE, 1 ACCEPTED, 2 REJECTED, 3 ILLEGAL_COMMAND. -/
def CfgResult.code : CfgResult → BitVec 2
  | .none => 0
  | .accepted => 1
  | .rejected => 2
  | .illegalCommand => 3

/-- R311: the cause codes. -/
def CfgCause.code : CfgCause → BitVec 4
  | .none => 0
  | .countTooLarge => 1
  | .lengthTooLong => 2
  | .rangeOverflow => 3
  | .subblockMismatch => 4
  | .badDataState => 5

/-- R143: the transaction error codes. -/
def ErrCode.code : ErrCode → Nat
  | .ok => 0
  | .regAlign => 1
  | .poolAlign => 2

/-- R63: CFG_STATUS. -/
def cfgStatusWord (c : CfgStatus) : Word := 0#16 ++ c.entry ++ c.cause.code ++ 0#2 ++ c.result.code

/-- R65: MODE. -/
def modeWord (mode : Mode) (act : Option Nat) : Word :=
  0#15 ++ BitVec.ofBool act.isSome ++ BitVec.ofNat 8 (act.getD 0) ++ 0#6 ++ mode.code

/-- R69: PHASE. -/
def phaseWord (phase : Fin 10) (half : Option Bool) : Word :=
  0#22 ++ BitVec.ofBool (half.getD false) ++ BitVec.ofBool half.isSome ++ 0#4 ++ BitVec.ofNat 4 phase.val

/-- R77: FAULT. -/
def faultWord (fault : Bool) : Word := 0#31 ++ BitVec.ofBool fault

/-- R46, R193: a byte address of 1024 or more sets OVERFLOW; only reset clears it. -/
def overflowFlag (fault : Bool) (a : Nat) : Bool := fault || decide (bufBytes ≤ a)

/-- R203: a violated start or stop bit adds 1 to `framingErrCount`, modulo 2^32. -/
def countFraming (violated : Bool) (s : State) : State :=
  { s with framingErrCount := if violated then s.framingErrCount + 1 else s.framingErrCount }

/-- R241: a publish that finds its slot's `valid` = 1 adds 1 to `overrunCount`, modulo 2^32. -/
def countOverrun (valid : Byte) (s : State) : State :=
  { s with overrunCount := if valid = 1 then s.overrunCount + 1 else s.overrunCount }

/-- `cfgStatus <- (result, cause, entry)` (R47). -/
def setCfgStatus (result : CfgResult) (cause : CfgCause) (entry : Byte) (s : State) : State :=
  { s with cfgStatus := ⟨result, cause, entry⟩ }

end Machine
end Sys2Proof
end

