-- ==== Sys2Proof/Machine/Operands.lean ====
section
/-! DEFINITION. Operand forms: alignment (30_encoding.md R141, 20_memory.md R98, R99), the host register an offset
names (10_state.md R61 to R79), and the descriptor a STAGE area holds (30_encoding.md R133 to R139). -/

namespace Sys2Proof.Machine

/-- `ceil8(n) = (n + 7) div 8` (R13). -/
def ceil8 (n : Nat) : Nat := (n + 7) / 8

/-- `off[1:0] = 0` (R272). -/
def regAligned (off : BitVec 12) : Bool := decide (off.toNat % 4 = 0)

/-- `addr mod n = 0` (R247). -/
def poolAligned (n : Nat) (addr : BitVec 13) : Bool := decide (addr.toNat % n = 0)

/-- The registers of the host map. -/
inductive HostReg where
  | cmd | cfgStatus | patCount | mode | bitCount | subCount | cursor | phase
  | win0 | win1 | win2 | win3 | writeIndex | overrunCount | framingErrCount | fault | rxTime
  | stage (i w : Nat)
  | reserved
  deriving DecidableEq, Repr

/-- The register at an aligned offset (R61 to R79); STAGE reaches 0x100 + 0x20 × NPAT_MAX (R62, R270). -/
def hostReg (npatMax : Nat) (off : BitVec 12) : HostReg :=
  if off = 0x000 then .cmd
  else if off = 0x004 then .cfgStatus
  else if off = 0x008 then .patCount
  else if off = 0x00C then .mode
  else if off = 0x010 then .bitCount
  else if off = 0x014 then .subCount
  else if off = 0x018 then .cursor
  else if off = 0x01C then .phase
  else if off = 0x020 then .win0
  else if off = 0x024 then .win1
  else if off = 0x028 then .win2
  else if off = 0x02C then .win3
  else if off = 0x030 then .writeIndex
  else if off = 0x034 then .overrunCount
  else if off = 0x038 then .framingErrCount
  else if off = 0x03C then .fault
  else if off = 0x040 then .rxTime
  else if 0x100 ≤ off.toNat ∧ off.toNat < 0x100 + 0x20 * npatMax then
    .stage ((off.toNat - 0x100) / 0x20) ((off.toNat - 0x100) / 4 % 8)
  else .reserved

/-- `decode(sdesc[i])` (R138): eight words, every field zero-extended, reserved bits dropped. -/
def decodeDescriptor (d : Nat → Word) : PatternSpec where
  p0 := d 1 ++ d 0
  p1 := d 3 ++ d 2
  id := (d 4).extractLsb' 0 8
  lengthBits := (d 4).extractLsb' 8 8
  maxHammingDistance := (d 4).extractLsb' 16 8
  dataState := Mode.ofCode ((d 4).extractLsb' 24 2)
  inverted := (d 4).getLsbD 26
  frameLengthBits := (d 5).extractLsb' 0 16
  startOffset := (d 5).extractLsb' 16 16
  subBlockBits := (d 6).extractLsb' 0 16
  subBlockBytes := (d 6).extractLsb' 16 16
  postProcess := (d 7).extractLsb' 0 8

/-- The descriptors `spec[0..count-1]` of the STAGE area, in table order (R131, R278). -/
def stagedSpecs (s : State) (count : Nat) : List PatternSpec :=
  (List.range count).map fun i => decodeDescriptor (s.sdescWord i)

end Sys2Proof.Machine
end

