-- ==== Sys2Proof/Machine/Publish.lean ====
section
/-! DEFINITION. The publish of a completed frame: its schedule, its 1029 events, and the hold of the producer
(42_buffer_pool.md R240 to R245; 40_correlator.md R161). -/

namespace Sys2Proof.Machine

/-- The set W of a fresh record (R240): every data byte, `opcode`, `param` and `rxTime`. -/
def allFieldWrites : List FieldWrite :=
  (List.finRange bufBytes).map FieldWrite.data ++ [.opcode, .param, .rxTime]

/-- `writeIndex mod 4` (R240, R50). -/
def targetSlot (writeIndex : Word) : Fin poolSlots :=
  ⟨writeIndex.toNat % 4, Nat.mod_lt _ (by decide)⟩

/-- The pending record that `publish_events` makes (R240). -/
def publishRecord (slot : Fin poolSlots) (opcode : Byte) (param : Half) (rxTime : Word) (data : Buffer) : Publish where
  slot := slot
  opcode := opcode
  param := param
  rxTime := rxTime
  data := data
  checked := false
  pending := allFieldWrites

/-- One field write (R242), in the slot's layout (R93). -/
def performFieldWrite (p : Publish) (f : FieldWrite) (m : Memory) : Memory :=
  match f with
  | .data j => m.writeLE (dataAddr p.slot j) 1 (p.data[j].setWidth 32)
  | .opcode => m.writeLE (opcodeAddr p.slot) 1 (p.opcode.setWidth 32)
  | .param => m.writeLE (paramAddr p.slot) 2 (p.param.setWidth 32)
  | .rxTime => m.writeLE (rxTimeAddr p.slot) 4 p.rxTime

/-- The producer's next step on a pending record: the overrun check (R241), else one element of W, chosen freely
(`pick` modulo how many are left), else `valid <- 1`, which empties `pub` (R242). -/
def publishEvent (pick : Nat) (p : Publish) (s : State) : State :=
  if p.checked = false then
    countOverrun (s.pool.readByte (validAddr p.slot)) { s with pub := some { p with checked := true } }
  else
    match p.pending with
    | [] => { s with pool := s.pool.writeLE (validAddr p.slot) 1 0x01, pub := none }
    | f :: fs =>
      let i := pick % (f :: fs).length
      let chosen := (f :: fs)[i]'(Nat.mod_lt _ (Nat.succ_pos _))
      { s with
        pool := performFieldWrite p chosen s.pool
        pub := some { p with pending := (f :: fs).eraseIdx i } }

/-- The hold (R161): while `pub` is not empty a producer transaction does nothing, and the producer's step is the next
publish event (log 12); else the transaction runs. -/
def holdUntilPublished (s : State) (run : State → Result) : Result :=
  match s.pub with
  | some p => .next (publishEvent s.pick p s)
  | none => run s

end Sys2Proof.Machine
end

