-- ==== Sys2Proof/Machine/Collector.lean ====
section
/-! DEFINITION. The frame collector: placement of a payload bit, the three decode modes, and completion
(41_collector.md R190 to R222). -/

namespace Sys2Proof.Machine

/-- R12: `HOOK(0)` is the identity; every other hook is free. -/
def hook (n : Byte) (spec : PatternSpec) (data : Buffer) (param : Half) (rxTime : Word) : Buffer × Half :=
  if n = 0 then (data, param) else Config.freeHook n spec data param rxTime

/-- R220: the hook runs, the publish is scheduled, `writeIndex` advances, and the frame ends. -/
def completeFrame (spec : PatternSpec) (s : State) : State :=
  let out := hook spec.postProcess spec s.stage s.curParam s.rxTimeLatch
  clearFrame
    { s with
      stage := out.1
      pub := some (publishRecord (targetSlot s.writeIndex) spec.id out.2 s.rxTimeLatch out.1)
      writeIndex := s.writeIndex + 1 }

/-- R191, R97: LSB first in DATA_UART_8N1, else MSB first. -/
def bitPosition (mode : Mode) (k : Nat) : Nat :=
  match mode with
  | .dataUart8N1 => k % 8
  | _ => 7 - k % 8

/-- `v << pos` in a byte. -/
def bitByte (v : Bool) (pos : Nat) : Byte := (BitVec.ofBool v).setWidth 8 <<< pos

/-- R191: the byte address `base + (k >> 3)` of the next payload bit, an unbounded natural. -/
def byteAddress (s : State) : Nat := s.base.toNat + s.subCount.toNat / 8

/-- R191, R192: the first bit placed in a byte writes the whole byte, a later one is ORed in; an address of 1024 or more reaches
no byte (R193, R95). -/
def placeByte (buf : Buffer) (a : Nat) (first : Bool) (bits : Byte) : Buffer :=
  if h : a < bufBytes then buf.set a (if first then bits else buf[a] ||| bits) h else buf

/-- R191 to R193, R195: payload bit d, inverted if the entry says so, goes to the staging buffer, or sets OVERFLOW. -/
def storeBit (spec : PatternSpec) (d : Bool) (s : State) : State :=
  { s with
    stage := placeByte s.stage (byteAddress s) (decide (s.subCount.toNat % 8 = 0))
      (bitByte (d ^^ spec.inverted) (bitPosition s.mode s.subCount.toNat))
    fault := overflowFlag s.fault (byteAddress s) }

/-- R194: is the bit being placed the last of its sub-block? -/
def endsSubBlock (spec : PatternSpec) (s : State) : Bool :=
  decide (0 < spec.subBlockBits.toNat ∧ s.subCount + 1 = spec.subBlockBits)

/-- R191, R194: the sub-block counter and, at a boundary, the sub-block's base. -/
def advanceSubBlock (spec : PatternSpec) (s : State) : State :=
  { s with
    subCount := if endsSubBlock spec s then 0 else s.subCount + 1
    base := if endsSubBlock spec s then s.base + spec.subBlockBytes else s.base }

/-- R191: `put(d)`. -/
def putBit (spec : PatternSpec) (d : Bool) (s : State) : State := advanceSubBlock spec (storeBit spec d s)

/-- `bitCount <- bitCount + 1`. -/
def countBit (s : State) : State := { s with bitCount := s.bitCount + 1 }

/-- R196, R207: the frame completes when `bitCount` reaches `frameLengthBits`. -/
def completeIfFull (spec : PatternSpec) (s : State) : State :=
  if s.bitCount = spec.frameLengthBits then completeFrame spec s else s

/-- R196. -/
def rawStep (spec : PatternSpec) (b : Bool) (s : State) : State :=
  completeIfFull spec (countBit (putBit spec b s))

/-- R200: the start bit. -/
def uartStart (b : Bool) (s : State) : State := { countFraming b s with uartPhase := 1 }

/-- R200, R201: a data bit, placed only below `frameLengthBits`. -/
def uartData (spec : PatternSpec) (b : Bool) (s : State) : State :=
  let placed := if s.bitCount.toNat < spec.frameLengthBits.toNat then putBit spec b s else s
  { countBit placed with uartPhase := s.uartPhase + 1 }

/-- R200, R202: the stop bit, which completes the frame once `frameLengthBits` data bits are consumed. -/
def uartStop (spec : PatternSpec) (b : Bool) (s : State) : State :=
  let ended := { countFraming (!b) s with uartPhase := 0 }
  if spec.frameLengthBits.toNat ≤ ended.bitCount.toNat then completeFrame spec ended else ended

/-- R200: the position within the 10-bit character decides. -/
def uartStep (spec : PatternSpec) (b : Bool) (s : State) : State :=
  if s.uartPhase.val = 0 then uartStart b s
  else if s.uartPhase.val ≤ 8 then uartData spec b s
  else uartStop spec b s

/-- R207, R208: a half-bit; the second half decodes to the XOR of the two. -/
def biphaseStep (spec : PatternSpec) (b : Bool) (s : State) : State :=
  match s.half with
  | none => { s with half := some b }
  | some h => completeIfFull spec (countBit (putBit spec (h ^^ b) { s with half := none }))

/-- R190: `collect(b)` of the current mode. In HUNT nothing is collected. -/
def collect (spec : PatternSpec) (b : Bool) (s : State) : State :=
  match s.mode with
  | .hunt => s
  | .dataRaw => rawStep spec b s
  | .dataUart8N1 => uartStep spec b s
  | .dataBiphaseS => biphaseStep spec b s

end Sys2Proof.Machine
end

