-- ==== Sys2Proof/Machine/Correlator.lean ====
section
/-! DEFINITION. FEED in HUNT: the window shift, the masked Hamming distance, match selection and the match actions
(40_correlator.md R162 to R167). -/

namespace Sys2Proof.Machine

/-- `popcount(v)` (R13): how many bits of the window are 1. -/
def popcount (v : BitVec winBits) : Nat := (List.range winBits).countP v.getLsbD

/-- R163: the low `lengthBits` bits. -/
def lengthMask (lengthBits : Byte) : BitVec winBits :=
  if lengthBits.toNat = winBits then BitVec.allOnes winBits
  else BitVec.ofNat winBits (2 ^ lengthBits.toNat - 1)

/-- R163: `popcount((window XOR P) AND mask)` with `P = p1 : p0`. -/
def hammingDistance (spec : PatternSpec) (window : BitVec winBits) : Nat :=
  popcount ((window ^^^ (spec.p1 ++ spec.p0)) &&& lengthMask spec.lengthBits)

/-- R164: is the distance within the entry's tolerance? -/
def patternMatches (spec : PatternSpec) (window : BitVec winBits) : Bool :=
  decide (hammingDistance spec window ≤ spec.maxHammingDistance.toNat)

/-- R164: the first matching entry in table order, from index i on. -/
def findMatch (window : BitVec winBits) : Nat → List PatternSpec → Option (Nat × PatternSpec)
  | _, [] => none
  | i, spec :: rest => if patternMatches spec window then some (i, spec) else findMatch window (i + 1) rest

/-- R162: the new bit enters `window[0]` and `window[127]` is lost. -/
def shiftWindow (b : Bool) (s : State) : State := { s with window := (s.window.setWidth 127).concat b }

/-- R165: the match actions up to the mode, before a zero-length frame completes. -/
def startFrame (i : Nat) (spec : PatternSpec) (t : Word) (s : State) : State :=
  { s.drawStage with
    act := some i
    rxTimeLatch := t
    bitCount := 0
    subCount := 0
    uartPhase := 0
    half := none
    base := spec.startOffset
    curParam := 0
    mode := spec.dataState }

/-- R165, R167: `match(i, t)`. -/
def matchPattern (i : Nat) (spec : PatternSpec) (t : Word) (s : State) : State :=
  if spec.frameLengthBits = 0 then completeFrame spec (startFrame i spec t s) else startFrame i spec t s

/-- R160, R164, R166: the compare of a FEED in HUNT. -/
def huntStep (t : Word) (s : State) : State :=
  match findMatch s.window 0 s.table with
  | some (i, spec) => matchPattern i spec t s
  | none => s

end Sys2Proof.Machine
end

