-- ==== Sys2Proof/Machine/Feed.lean ====
section
/-! DEFINITION. FEED (40_correlator.md R160, R168). -/

namespace Sys2Proof.Machine

/-- R160 after the hold and the shift: the compare in HUNT, else the collector. FEED always responds (0, 0). -/
def feedShifted (b : Bool) (t : Word) (s : State) : Result :=
  match s.mode with
  | .hunt => .next (respond .producer okResponse (huntStep t s))
  | _ =>
    match s.activeSpec with
    | some spec => .next (respond .producer okResponse (collect spec b s))
    | none => .fault .noActivePattern

/-- FEED (R160). -/
def execFeed (b : Bool) (t : Word) (s : State) : Result :=
  holdUntilPublished s fun s => feedShifted b t (shiftWindow b s)

end Sys2Proof.Machine
end

