-- ==== Sys2Proof/Machine/Pool.lean ====
section
/-! DEFINITION. The consumer's transactions: POOL_READ and POOL_WRITE (42_buffer_pool.md R247 to R249). -/

namespace Sys2Proof.Machine

/-- POOL_READ of n bytes (R247): misaligned raises POOL_ALIGN; else the response is the bytes, zero-extended. -/
def poolRead (n : Nat) (addr : BitVec 13) (s : State) : Result :=
  if poolAligned n addr then .next (respond .consumer ⟨.ok, s.pool.readLE addr.toNat n⟩ s)
  else raiseError .consumer .poolAlign s

/-- POOL_READ8. -/
def execPoolRead8 (addr : BitVec 13) (s : State) : Result := poolRead 1 addr s

/-- POOL_READ16. -/
def execPoolRead16 (addr : BitVec 13) (s : State) : Result := poolRead 2 addr s

/-- POOL_READ32. -/
def execPoolRead32 (addr : BitVec 13) (s : State) : Result := poolRead 4 addr s

/-- POOL_READ_SZ3 (R141, R247): always Error(POOL_ALIGN). -/
def execPoolReadSz3 (s : State) : Result := raiseError .consumer .poolAlign s

/-- R102, R248: does this write clear a `valid` flag? Every other write is ignored. -/
def clearsValid (addr : BitVec 13) (v : Byte) : Bool :=
  decide (addr.toNat % 0x800 = 0x400 ∧ v = 0x00)

/-- POOL_WRITE8 (R248). -/
def execPoolWrite8 (addr : BitVec 13) (v : Byte) (s : State) : Result :=
  if clearsValid addr v then
    .next (respond .consumer okResponse { s with pool := s.pool.writeByte addr.toNat 0 })
  else .next (respond .consumer okResponse s)

/-- POOL_WRITE_BADSZ (R141, R249): always Error(POOL_ALIGN). -/
def execPoolWriteBadSz (s : State) : Result := raiseError .consumer .poolAlign s

end Sys2Proof.Machine
end

