-- ==== Sys2Proof/Machine/Commands.lean ====
section
/-! DEFINITION. The commands written to CMD: NOP, OPEN, CONFIGURE and the reserved ones
(43_configuration.md R275 to R289). -/

namespace Sys2Proof.Machine

/-- R282: `lengthBits > 128` fails. -/
def lengthTooLong (spec : PatternSpec) : Bool := decide (winBits < spec.lengthBits.toNat)

/-- R283: `startOffset + ceil8(frameLengthBits) > 1024` fails, on unbounded naturals. -/
def rangeOverflow (spec : PatternSpec) : Bool :=
  decide (bufBytes < spec.startOffset.toNat + ceil8 spec.frameLengthBits.toNat)

/-- R284: `subBlockBits > 0` and `subBlockBytes ≠ ceil8(subBlockBits)` fails. -/
def subblockMismatch (spec : PatternSpec) : Bool :=
  decide (0 < spec.subBlockBits.toNat ∧ spec.subBlockBytes.toNat ≠ ceil8 spec.subBlockBits.toNat)

/-- R285: `dataState = 0` fails. -/
def badDataState (spec : PatternSpec) : Bool := decide (spec.dataState = .hunt)

/-- R279: the cause of the first check that fails, in the order LENGTH, RANGE, SUBBLOCK, BAD_DATA_STATE. -/
def firstFailingCheck (spec : PatternSpec) : CfgCause :=
  if lengthTooLong spec then .lengthTooLong
  else if rangeOverflow spec then .rangeOverflow
  else if subblockMismatch spec then .subblockMismatch
  else if badDataState spec then .badDataState
  else .none

/-- R278: the first entry that fails, from index i on, with its cause. -/
def firstRejected : Nat → List PatternSpec → Option (Nat × CfgCause)
  | _, [] => none
  | i, spec :: rest =>
    if firstFailingCheck spec ≠ .none then some (i, firstFailingCheck spec) else firstRejected (i + 1) rest

/-- R286: `reject(c, i)` changes `cfgStatus` and nothing else. -/
def rejectConfig (cause : CfgCause) (entry : Nat) (s : State) : State :=
  setCfgStatus .rejected cause (BitVec.ofNat 8 entry) s

/-- R287: the table is replaced whole and a frame in progress is aborted, unpublished. -/
def acceptConfig (specs : List PatternSpec) (s : State) : State :=
  clearFrame (setCfgStatus .accepted .none 0 { s with table := specs })

/-- R278: CONFIGURE. -/
def configure (count : Byte) (s : State) : State :=
  if s.params.npatMax < count.toNat then rejectConfig .countTooLarge 0 s
  else
    match firstRejected 0 (stagedSpecs s count.toNat) with
    | some (i, cause) => rejectConfig cause i s
    | none => acceptConfig (stagedSpecs s count.toNat) s

/-- R289: ILLEGAL_COMMAND changes `cfgStatus` and nothing else. -/
def illegalCommand (s : State) : State := setCfgStatus .illegalCommand .none 0 s

/-- R275: `command(C)` by C[3:0]; C[15:8] is CONFIGURE's count. -/
def command (c : Word) (s : State) : State :=
  let op := c.extractLsb' 0 4
  if op = 0x0 then s
  else if op = 0x1 then machineReset s
  else if op = 0x2 then configure (c.extractLsb' 8 8) s
  else illegalCommand s

/-- A command is a REG_WRITE: it waits for `pub` to be empty and responds (0, 0) (R270). -/
def runCommand (effect : State → State) (s : State) : Result :=
  holdUntilPublished s fun s => .next (respond .producer okResponse (effect s))

/-- CMD_NOP (R276): no state changes. -/
def execCmdNop (s : State) : Result := runCommand (fun s => s) s

/-- CMD_OPEN (R277): `reset()`. -/
def execCmdOpen (s : State) : Result := runCommand machineReset s

/-- CMD_CONFIGURE (R278). -/
def execCmdConfigure (count : Byte) (s : State) : Result := runCommand (configure count) s

/-- CMD_ILLEGAL_3 (R289). -/
def execCmdIllegal3 (s : State) : Result := runCommand illegalCommand s

/-- CMD_ILLEGAL_4_7 (R289). -/
def execCmdIllegal4To7 (s : State) : Result := runCommand illegalCommand s

/-- CMD_ILLEGAL_8_F (R289). -/
def execCmdIllegal8ToF (s : State) : Result := runCommand illegalCommand s

end Sys2Proof.Machine
end

