-- ==== Sys2Proof/Machine/Registers.lean ====
section
/-! DEFINITION. REG_WRITE and REG_READ (43_configuration.md R270 to R273). -/

namespace Sys2Proof.Machine

/-- `regval` (R271): the word of a register (10_state.md R61 to R79). CMD and reserved offsets read 0. -/
def regValue (s : State) : HostReg → Word
  | .cmd => 0
  | .cfgStatus => cfgStatusWord s.cfgStatus
  | .patCount => 0#24 ++ BitVec.ofNat 8 s.patCount
  | .mode => modeWord s.mode s.act
  | .bitCount => 0#16 ++ s.bitCount
  | .subCount => 0#16 ++ s.subCount
  | .cursor => 0#16 ++ s.base
  | .phase => phaseWord s.uartPhase s.half
  | .win0 => s.window.extractLsb' 0 32
  | .win1 => s.window.extractLsb' 32 32
  | .win2 => s.window.extractLsb' 64 32
  | .win3 => s.window.extractLsb' 96 32
  | .writeIndex => s.writeIndex
  | .overrunCount => s.overrunCount
  | .framingErrCount => s.framingErrCount
  | .fault => faultWord s.fault
  | .rxTime => s.rxTimeLatch
  | .stage i w => s.sdescWord i w
  | .reserved => 0

/-- R270: a write to CMD is a command, one to STAGE stores the word, one to any other register has no effect. -/
def writeReg (wdata : Word) (s : State) : HostReg → State
  | .cmd => command wdata s
  | .stage i w => s.setSdescWord i w wdata
  | _ => s

/-- REG_WRITE (R270). -/
def execRegWrite (off : BitVec 12) (wdata : Word) (s : State) : Result :=
  holdUntilPublished s fun s =>
    if regAligned off then
      .next (respond .producer okResponse (writeReg wdata s (hostReg s.params.npatMax off)))
    else raiseError .producer .regAlign s

/-- REG_READ (R271). -/
def execRegRead (off : BitVec 12) (s : State) : Result :=
  holdUntilPublished s fun s =>
    if regAligned off then
      .next (respond .producer ⟨.ok, regValue s (hostReg s.params.npatMax off)⟩ s)
    else raiseError .producer .regAlign s

end Sys2Proof.Machine
end

