-- ==== Sys2Proof/Machine/Dispatch.lean ====
section
/-! DEFINITION. One arm for each transaction: its meaning. -/

namespace Sys2Proof.Machine

def exec (i : Instr) (s : State) : Host.Outcome State Fault Refusal :=
  match i with
  | .feed b t => Sys2Proof.Machine.execFeed b t s
  | .regWrite off wdata => Sys2Proof.Machine.execRegWrite off wdata s
  | .cmdNop => Sys2Proof.Machine.execCmdNop s
  | .cmdOpen => Sys2Proof.Machine.execCmdOpen s
  | .cmdConfigure count => Sys2Proof.Machine.execCmdConfigure count s
  | .cmdIllegal3 => Sys2Proof.Machine.execCmdIllegal3 s
  | .cmdIllegal4To7 _ => Sys2Proof.Machine.execCmdIllegal4To7 s
  | .cmdIllegal8ToF _ => Sys2Proof.Machine.execCmdIllegal8ToF s
  | .regRead off => Sys2Proof.Machine.execRegRead off s
  | .poolRead8 addr => Sys2Proof.Machine.execPoolRead8 addr s
  | .poolRead16 addr => Sys2Proof.Machine.execPoolRead16 addr s
  | .poolRead32 addr => Sys2Proof.Machine.execPoolRead32 addr s
  | .poolReadSz3 _ => Sys2Proof.Machine.execPoolReadSz3 s
  | .poolWrite8 addr v => Sys2Proof.Machine.execPoolWrite8 addr v s
  | .poolWriteBadSz _ _ _ => Sys2Proof.Machine.execPoolWriteBadSz s

end Sys2Proof.Machine
end

