-- ==== Sys2Proof/Machine/Agents.lean ====
section
/-! DEFINITION. The steps of the two agents (60_exceptions.md R320 to R322): what each does in a turn. -/

namespace Sys2Proof.Machine

/-- An agent takes one presented word: decode it (a reserved kind is refused, R127), and run it if the agent's
interface can issue it (R120, log 13). -/
def runWord (a : Agent) (w : TransWord) (s : State) : Result :=
  match decode w with
  | .error (.reservedKind kind) => .refused (.reservedKind kind)
  | .ok i => if i.agent = a then exec i s else .refused .wrongPort

/-- A producer turn (R321): the next publish event while one is pending (R161), else the next presented transaction, else
nothing. -/
def producerStep (s : State) : Result :=
  match s.pub with
  | some p => .next (publishEvent s.pick p s)
  | none =>
    match s.producerIn with
    | [] => .next s
    | w :: rest => runWord .producer w { s with producerIn := rest }

/-- A consumer turn (R322): the next presented transaction, else nothing. -/
def consumerStep (s : State) : Result :=
  match s.consumerIn with
  | [] => .next s
  | w :: rest => runWord .consumer w { s with consumerIn := rest }

/-- The next turn of the interleaving (R103, R320). With no turn listed no agent is scheduled and nothing changes
(R329; log 1). -/
def takeTurn (s : State) : Result :=
  match s.turns with
  | [] => .next s
  | .producer pick :: rest => producerStep { s with turns := rest, pick := pick }
  | .consumer :: rest => consumerStep { s with turns := rest }

/-- Present one word so that the next turn runs it (log 3): it becomes the first word of the agent whose interface
issues its kind, that agent's turn is the next, and for the producer no publish is pending (R161). -/
def presentWord (w : TransWord) (s : State) : State :=
  if w.extractLsb' 60 4 = 0x4 ∨ w.extractLsb' 60 4 = 0x5 then
    { s with consumerIn := w :: s.consumerIn, turns := .consumer :: s.turns }
  else
    { s with producerIn := w :: s.producerIn, turns := .producer 0 :: s.turns, pub := none }

end Sys2Proof.Machine
end

