-- ==== Sys2Proof/Machine/Step.lean ====
section
/-! DEFINITION. One step of RA-CORE: one turn of one agent. -/

namespace Sys2Proof.Machine

/-- One step: the next turn of the interleaving. -/
def step (s : State) : Host.Outcome State Fault Refusal := takeTurn s

/-- s with one transaction word presented as the very next thing to run (log 3). -/
def State.withFetchWord (s : State) (nbits w : Nat) : State :=
  presentWord (BitVec.ofNat 64 (w % 2 ^ nbits)) s

end Sys2Proof.Machine
end

