-- ==== Sys2Proof/Safety.lean ====
section
/-! DEFINITION. The terms claims are made in: views of the pool's slots, what a FEED does to the window and to the
staging buffer, runs, the invariants of 10_state.md R52 and of POOL and STAGE, and what a safe run is. -/

namespace Sys2Proof.Machine

/-! ### Views of a slot (R93) -/

/-- The `valid` byte of slot k. -/
def State.slotValid (s : State) (k : Fin poolSlots) : Byte := s.pool.readByte (validAddr k)

/-- The `opcode` of slot k. -/
def State.slotOpcode (s : State) (k : Fin poolSlots) : Byte := s.pool.readByte (opcodeAddr k)

/-- The `param` of slot k, little-endian. -/
def State.slotParam (s : State) (k : Fin poolSlots) : Half :=
  s.pool.readByte (paramAddr k + 1) ++ s.pool.readByte (paramAddr k)

/-- The `rxTime` of slot k, little-endian. -/
def State.slotRxTime (s : State) (k : Fin poolSlots) : Word :=
  s.pool.readByte (rxTimeAddr k + 3) ++ s.pool.readByte (rxTimeAddr k + 2) ++ s.pool.readByte (rxTimeAddr k + 1) ++
    s.pool.readByte (rxTimeAddr k)

/-- `data[j]` of slot k. -/
def State.slotData (s : State) (k : Fin poolSlots) (j : Fin bufBytes) : Byte := s.pool.readByte (dataAddr k j)

/-- The byte that a pending field write stores at POOL address a, if it stores one there (R242). -/
def Publish.storedByte (p : Publish) (f : FieldWrite) (a : Nat) : Option Byte :=
  match f with
  | .data j => if a = dataAddr p.slot j then some p.data[j] else none
  | .opcode => if a = opcodeAddr p.slot then some p.opcode else none
  | .param =>
    if a = paramAddr p.slot then some (p.param.extractLsb' 0 8)
    else if a = paramAddr p.slot + 1 then some (p.param.extractLsb' 8 8)
    else none
  | .rxTime =>
    if a = rxTimeAddr p.slot then some (p.rxTime.extractLsb' 0 8)
    else if a = rxTimeAddr p.slot + 1 then some (p.rxTime.extractLsb' 8 8)
    else if a = rxTimeAddr p.slot + 2 then some (p.rxTime.extractLsb' 16 8)
    else if a = rxTimeAddr p.slot + 3 then some (p.rxTime.extractLsb' 24 8)
    else none

/-- W lists every pending field write, each once (R240). -/
def CompleteW (W : List FieldWrite) : Prop := W.Nodup ∧ ∀ f, f ∈ W

/-! ### What a FEED does -/

/-- R162: `new` is `old` with b shifted in at bit 0. -/
def IsShift (old : BitVec winBits) (b : Bool) (new : BitVec winBits) : Prop :=
  ∀ i, i < winBits → new.getLsbD i = if i = 0 then b else old.getLsbD (i - 1)

/-- R163: in how many of the low `lengthBits` positions the window and the pattern P = p1 : p0 differ. -/
def differingBits (spec : PatternSpec) (window : BitVec winBits) : Nat :=
  (List.range spec.lengthBits.toNat).countP fun i =>
    window.getLsbD i != (if i < 64 then spec.p0.getLsbD i else spec.p1.getLsbD (i - 64))

/-- R191 to R195: what `put(d)` makes of the staging bytes, `fault`, `subCount` and `base`. -/
structure PutEffect (spec : PatternSpec) (d lsbFirst : Bool) (s : State) (stage : Buffer) (fault : Bool)
    (subCount base : Half) : Prop where
  /-- The payload bit lands in one byte; the first bit of a byte clears the rest of it; no other byte changes; a byte
  address of 1024 or more is no byte. -/
  bits : ∀ (x : Fin bufBytes) (p : Nat), p < 8 →
    stage[x].getLsbD p =
      if x.val = s.base.toNat + s.subCount.toNat / 8 then
        ((decide (s.subCount.toNat % 8 ≠ 0) && s.stage[x].getLsbD p) ||
          (decide (p = if lsbFirst then s.subCount.toNat % 8 else 7 - s.subCount.toNat % 8) && (d ^^ spec.inverted)))
      else s.stage[x].getLsbD p
  /-- An address of 1024 or more sets OVERFLOW; nothing here clears it. -/
  overflow : fault = (s.fault || decide (bufBytes ≤ s.base.toNat + s.subCount.toNat / 8))
  /-- The sub-block counter restarts at a boundary. -/
  counter : subCount =
    if 0 < spec.subBlockBits.toNat ∧ s.subCount + 1 = spec.subBlockBits then 0 else s.subCount + 1
  /-- The base advances at a boundary. -/
  cursor : base =
    if 0 < spec.subBlockBits.toNat ∧ s.subCount + 1 = spec.subBlockBits then s.base + spec.subBlockBytes else s.base

/-! ### Runs -/

/-- FEED after FEED, stopping at the first fault or refusal. -/
def feedAll : List (Bool × Word) → State → Result
  | [], s => .next s
  | (b, t) :: rest, s =>
    match exec (.feed b t) s with
    | .next s' => feedAll rest s'
    | .fault r => .fault r
    | .refused r => .refused r

/-- n steps, stopping at the first fault or refusal. -/
def runSteps : Nat → State → Result
  | 0, s => .next s
  | n + 1, s =>
    match step s with
    | .next s' => runSteps n s'
    | .fault r => .fault r
    | .refused r => .refused r

/-- A safe run: it meets no fault. (A refusal is a word no interface can issue.) -/
def SafeRun (n : Nat) (s : State) : Prop := ∀ r, runSteps n s ≠ .fault r

/-! ### Invariants -/

/-- R52, invariant 1: "`mode ≠ HUNT` if and only if `act ≠ none`. When `act = i`, `i < patCount` and
`mode = table[i].dataState`." -/
def State.ActiveInv (s : State) : Prop :=
  (s.mode ≠ .hunt ↔ s.act ≠ none) ∧ ∀ i, s.act = some i → ∃ spec, s.table[i]? = some spec ∧ s.mode = spec.dataState

/-- R52, invariant 2. -/
def State.HuntInv (s : State) : Prop :=
  s.mode = .hunt →
    s.bitCount = 0 ∧ s.subCount = 0 ∧ s.base = 0 ∧ s.uartPhase = 0 ∧ s.half = none ∧ s.curParam = 0

/-- R52, invariant 3, and R7. -/
def State.TableInv (s : State) : Prop :=
  s.params.wf ∧ s.patCount ≤ s.params.npatMax ∧ ∀ spec ∈ s.table, firstFailingCheck spec = .none

/-- How many payload bits of the frame are placed: every bit consumed, in UART at most `frameLengthBits` (R201, R204). -/
def State.placedBits (s : State) (spec : PatternSpec) : Nat :=
  if s.mode = .dataUart8N1 then min s.bitCount.toNat spec.frameLengthBits.toNat else s.bitCount.toNat

/-- `bitCount` of a frame in progress: below `frameLengthBits` in RAW and BIPHASE; in UART R52's invariant 4, with the
complete characters n not yet the whole frame. Exact, so `bitCount` has not wrapped (R9). -/
def State.BitCountInv (s : State) : Prop :=
  ∀ spec, s.activeSpec = some spec →
    (s.mode = .dataRaw ∨ s.mode = .dataBiphaseS → s.bitCount.toNat < spec.frameLengthBits.toNat) ∧
    (s.mode = .dataUart8N1 →
      ∃ n, s.bitCount.toNat = 8 * n + (s.uartPhase.val - 1) ∧ 8 * n < spec.frameLengthBits.toNat)

/-- Where the next bit of a frame in progress goes (R194, R37, R38): q whole sub-blocks lie behind `base`. Exact, so
`subCount` and `base` have not wrapped (R9). -/
def State.PlaceInv (s : State) : Prop :=
  ∀ spec, s.activeSpec = some spec →
    (spec.subBlockBits = 0 → s.base = spec.startOffset ∧ s.subCount.toNat = s.placedBits spec) ∧
    (spec.subBlockBits ≠ 0 → ∃ q,
      s.base.toNat = spec.startOffset.toNat + q * spec.subBlockBytes.toNat ∧
      s.placedBits spec = q * spec.subBlockBits.toNat + s.subCount.toNat ∧
      s.subCount.toNat < spec.subBlockBits.toNat)

/-- The engine's invariant: R52 whole, with the counters of a frame exact. -/
structure State.EngineInv (s : State) : Prop where
  active : s.ActiveInv
  hunt : s.HuntInv
  table : s.TableInv
  bitCount : s.BitCountInv
  place : s.PlaceInv

/-- POOL: the canonical form; every listed address is a field byte of a slot; a listed `valid` byte is 1 (R93, R94). -/
structure State.PoolInv (s : State) : Prop where
  wf : s.pool.wf = true
  fields : ∀ c ∈ s.pool, c.1 < 0x2000 ∧ c.1 % 0x800 < 0x408
  valid : ∀ c ∈ s.pool, c.1 % 0x800 = 0x400 → c.2 = 1

/-- STAGE: the canonical form, and only words of descriptors 0..NPAT_MAX-1 (R48, R62). -/
structure State.StageInv (s : State) : Prop where
  wf : cellsWf 0 s.sdesc = true
  keys : ∀ c ∈ s.sdesc, c.1 < 8 * s.params.npatMax

/-- The pending publish: W has no repeats, and no write is done before the overrun check (R240, R241). -/
def State.PublishInv (s : State) : Prop :=
  ∀ p, s.pub = some p → p.pending.Nodup ∧ (p.checked = false → ∀ f, f ∈ p.pending)

end Sys2Proof.Machine
end

