-- ==== Sys2Proof/Certificates/Slice0/Obligations.lean ====
section
/-! DEFINITION. The statements for the provers. Each docstring says which rule of spec/ it formalises. A conclusion of the
form `exec i s = .next { s with … }` says at once that the instruction completes, what it writes, and its frame: every
field not named is as before. -/

namespace Sys2Proof.Machine

/-! ## Words used in the statements -/

/-- The bits of a word that its transaction reads; the others are reserved (R122 to R126, R128, R129), or are C[15:8] of a
command other than CONFIGURE (R129; log 16). -/
def usedBits : Instr → TransWord
  | .feed _ _ => 0xF0000001FFFFFFFF
  | .regWrite _ _ => 0xF0000FFFFFFFFFFF
  | .cmdNop => 0xF0000FFF0000000F
  | .cmdOpen => 0xF0000FFF0000000F
  | .cmdConfigure _ => 0xF0000FFF0000FF0F
  | .cmdIllegal3 => 0xF0000FFF0000000F
  | .cmdIllegal4To7 _ => 0xF0000FFF0000000F
  | .cmdIllegal8ToF _ => 0xF0000FFF0000000F
  | .regRead _ => 0xF0000FFF00000000
  | .poolRead8 _ => 0xF0031FFF00000000
  | .poolRead16 _ => 0xF0031FFF00000000
  | .poolRead32 _ => 0xF0031FFF00000000
  | .poolReadSz3 _ => 0xF0031FFF00000000
  | .poolWrite8 _ _ => 0xF0031FFF000000FF
  | .poolWriteBadSz _ _ _ => 0xF0031FFF000000FF

/-- The state after a completed frame (R220, R222): `stage` and `param` from the hook, the publish scheduled to slot
`writeIndex mod 4`, HUNT with every frame counter 0. The other fields are s's. -/
def CompletedFrom (s : State) (spec : PatternSpec) (window : BitVec winBits) (stage : Buffer) (fault : Bool)
    (rxTime : Word) (framing : Word) (draws : Nat) (param : Half) (W : List FieldWrite) (t : State) : Prop :=
  ∃ slot : Fin poolSlots, slot.val = s.writeIndex.toNat % 4 ∧
    t = { s with
      window := window
      mode := .hunt
      act := none
      bitCount := 0
      subCount := 0
      base := 0
      uartPhase := 0
      half := none
      rxTimeLatch := rxTime
      curParam := 0
      framingErrCount := framing
      stage := stage
      fault := fault
      writeIndex := s.writeIndex + 1
      draws := draws
      producerResp := some ⟨.ok, 0⟩
      pub := some
        { slot := slot, opcode := spec.id, param := param, rxTime := rxTime, data := stage, checked := false,
          pending := W } }

/-- What the hook of an entry gives: hook 0 is the identity, every other hook is any function (R12, R221). -/
def HookGives (spec : PatternSpec) (stage : Buffer) (param : Half) (rxTime : Word) (stage' : Buffer) (param' : Half) :
    Prop :=
  (spec.postProcess = 0 → stage' = stage ∧ param' = param) ∧
  (spec.postProcess ≠ 0 → (stage', param') = Config.freeHook spec.postProcess spec stage param rxTime)

/-- REG_READ of the register at an offset answers a word, and changes nothing but the response. -/
def ReadsAs (off : BitVec 12) (word : State → Nat) : Prop :=
  ∀ s, s.pub = none →
    ∃ r, r.toNat = word s ∧ exec (.regRead off) s = .next { s with producerResp := some ⟨.ok, r⟩ }

/-- m' is m with the byte v at address a. -/
def ByteWritten (m : Memory) (a : Nat) (v : Byte) (m' : Memory) : Prop :=
  ∀ x, m'.readByte x = if x = a then v else m.readByte x

/-- A frame of an entry within the buffer (R283) has just started in a mode: nothing consumed, nothing placed. -/
def FreshFrame (s : State) (i : Nat) (spec : PatternSpec) (mode : Mode) : Prop :=
  s.pub = none ∧ s.mode = mode ∧ s.act = some i ∧ s.table[i]? = some spec ∧ s.bitCount = 0 ∧ s.subCount = 0 ∧
  s.base = spec.startOffset ∧ s.uartPhase = 0 ∧ s.half = none ∧
  spec.frameLengthBits ≠ 0 ∧ spec.startOffset.toNat + (spec.frameLengthBits.toNat + 7) / 8 ≤ bufBytes

/-- The published bytes of an MSB-first frame (R197, R224): payload bit n of `bits` is bit 7 - n mod 8 of byte
`startOffset + n div 8`, inverted if the entry says so; the bits of the last byte that no payload bit reaches are 0; every other
byte is as it was. -/
def HoldsMsbFirst (spec : PatternSpec) (bits : List Bool) (before data : Buffer) : Prop :=
  ∀ (x : Fin bufBytes) (p : Nat), p < 8 →
    data[x].getLsbD p =
      if spec.startOffset.toNat ≤ x.val ∧ x.val < spec.startOffset.toNat + (bits.length + 7) / 8 then
        match bits[8 * (x.val - spec.startOffset.toNat) + (7 - p)]? with
        | some d => d ^^ spec.inverted
        | none => false
      else before[x].getLsbD p

/-- The same for an LSB-first frame. -/
def HoldsLsbFirst (spec : PatternSpec) (bits : List Bool) (before data : Buffer) : Prop :=
  ∀ (x : Fin bufBytes) (p : Nat), p < 8 →
    data[x].getLsbD p =
      if spec.startOffset.toNat ≤ x.val ∧ x.val < spec.startOffset.toNat + (bits.length + 7) / 8 then
        match bits[8 * (x.val - spec.startOffset.toNat) + p]? with
        | some d => d ^^ spec.inverted
        | none => false
      else before[x].getLsbD p

/-- R80: the elements to which the spec gives a value after reset have it. -/
def State.HasResetValues (s : State) : Prop :=
  s.window = 0 ∧ s.mode = .hunt ∧ (∀ k, s.slotValid k = 0) ∧ s.patCount = 0 ∧ s.act = none ∧ s.bitCount = 0 ∧
  s.subCount = 0 ∧ s.base = 0 ∧ s.uartPhase = 0 ∧ s.half = none ∧ s.rxTimeLatch = 0 ∧ s.curParam = 0 ∧
  s.overrunCount = 0 ∧ s.framingErrCount = 0 ∧ s.fault = false ∧
  s.cfgStatus = { result := .none, cause := .none, entry := 0 } ∧ (∀ i w, s.sdescWord i w = 0) ∧ s.writeIndex = 0 ∧
  s.pub = none

/-- The FEEDs of one UART character: start bit, eight data bits, stop bit. -/
def uartCharacter (start : Bool) (data : List Bool) (stop : Bool) : List Bool := start :: (data ++ [stop])

/-- The half-bits of a biphase bit (R208): they differ for a 1; the first level is free. -/
def biphasePair (level d : Bool) : List Bool := [level, level ^^ d]

end Sys2Proof.Machine

open Sys2Proof Sys2Proof.Machine

/-! ## Encoding -/

/-- 30_encoding.md: decoding the encoding of a well-formed instruction gives it back, whatever its operands. -/
def Obligations.DecodeInvertsEncode : Prop := ∀ i : Instr, i.wellFormed = true → decode (encode i) = .ok i

/-- Every decoded word decodes to a well-formed instruction of the most specific row of spec/opcode_table.json that it fits. -/
def Obligations.DecodePicksTheMostSpecificRow : Prop :=
  ∀ (w : TransWord) (i : Instr), decode w = .ok i →
    i.wellFormed = true ∧
    ∃ r ∈ opcodeRows, r.mnemonic = i.mnemonic ∧ r.fits w = true ∧
      ∀ q ∈ opcodeRows, q.fits w = true → r.asSpecificAs q = true

/-- R128: "Two words that differ only in reserved bits are the same transaction. An assembler writes them as 0." The same of
C[15:8] in NOP, OPEN and the reserved commands, a field that R129 calls "used only by CONFIGURE" and does not mark reserved:
that those bits are ignored and written 0 is the model's inference (log 16). -/
def Obligations.ReservedBitsAreIgnoredAndWrittenZero : Prop :=
  (∀ (w w' : TransWord) (i : Instr), decode w = .ok i → w &&& usedBits i = w' &&& usedBits i → decode w' = .ok i) ∧
  ∀ i : Instr, i.wellFormed = true → encode i &&& ~~~ usedBits i = 0

/-- R127: kinds 0x0 and 0x6..0xF spell no transaction: the decoder refuses exactly these, and the model gives a word of
these kinds no step, whichever agent it is presented to. -/
def Obligations.ReservedKindsAreRefused : Prop :=
  (∀ w : TransWord,
    (∃ e, decode w = .error e) ↔ w.extractLsb' 60 4 = 0x0 ∨ 6 ≤ (w.extractLsb' 60 4).toNat) ∧
  ∀ (s : State) (k : Nat) (w : TransWord) (rest : List Turn) (ws : List TransWord),
    w.extractLsb' 60 4 = 0x0 ∨ 6 ≤ (w.extractLsb' 60 4).toNat →
    (s.turns = .producer k :: rest → s.pub = none → s.producerIn = w :: ws →
      step s = .refused (.reservedKind (w.extractLsb' 60 4))) ∧
    (s.turns = .consumer :: rest → s.consumerIn = w :: ws →
      step s = .refused (.reservedKind (w.extractLsb' 60 4)))

/-- The encoded examples of R147 (which the spec marks "derived: from rules R121 to R126 and R146"), decoded and encoded. -/
def Obligations.EncodedExamplesOfTheSpec : Prop :=
  ∀ p ∈ ([ (0x1000000100000010, .feed true 0x10), (0x10000000FFFFFFFF, .feed false 0xFFFFFFFF),
      (0x2000000000000000, .cmdNop), (0x2000000000000001, .cmdOpen), (0x2000000000000202, .cmdConfigure 2),
      (0x20000100DEADBEEF, .regWrite 0x100 0xDEADBEEF), (0x3000000C00000000, .regRead 0x00C),
      (0x40001C0000000000, .poolRead8 0x1C00), (0x40010C0200000000, .poolRead16 0x0C02),
      (0x4002040000000000, .poolRead32 0x400), (0x5000040000000000, .poolWrite8 0x400 0),
      (0x50001C0000000000, .poolWrite8 0x1C00 0) ] : List (TransWord × Instr)),
    decode p.1 = .ok p.2 ∧ encode p.2 = p.1

/-! ## Steps -/

/-- 60_exceptions.md R320 to R322 with log 1 and log 3: a turn of an agent whose next word decodes to a transaction of its
interface runs exactly that transaction, on the state whose turn and word are taken; an agent with no word does nothing but
take its turn; with no turn nothing changes. -/
def Obligations.StepRunsTheDecodedInstruction : Prop :=
  ∀ (s : State) (k : Nat) (w : TransWord) (i : Instr) (rest : List Turn) (ws : List TransWord),
    (s.turns = .producer k :: rest → s.pub = none → s.producerIn = w :: ws → decode w = .ok i → i.agent = .producer →
      step s = exec i { s with turns := rest, pick := k, producerIn := ws }) ∧
    (s.turns = .consumer :: rest → s.consumerIn = w :: ws → decode w = .ok i → i.agent = .consumer →
      step s = exec i { s with turns := rest, consumerIn := ws }) ∧
    (s.turns = .producer k :: rest → s.pub = none → s.producerIn = [] →
      step s = .next { s with turns := rest, pick := k }) ∧
    (s.turns = .consumer :: rest → s.consumerIn = [] → step s = .next { s with turns := rest }) ∧
    (s.turns = [] → step s = .next s)

/-- R161, log 12: while a publish is pending the producer takes no transaction of any kind: its turn changes `pub`, `pool` and
`overrunCount` at most (and the turn itself), and a producer transaction executed there does the same publish event. -/
def Obligations.PendingPublishHoldsTheProducer : Prop :=
  ∀ (s : State) (p : Publish), s.pub = some p →
    (∀ (k : Nat) (rest : List Turn), s.turns = .producer k :: rest →
      ∃ (m : Memory) (pub : Option Publish) (n : Word),
        step s = .next { s with turns := rest, pick := k, pool := m, pub := pub, overrunCount := n }) ∧
    ∀ i : Instr, i.agent = .producer → ∀ (k : Nat) (rest : List Turn), s.turns = .producer k :: rest →
      exec i { s with turns := rest, pick := k } = step s

/-- R320, R322, R161: a consumer turn never waits: with a decodable consumer word it answers a next state, whatever the
producer is doing. -/
def Obligations.ConsumerNeverWaits : Prop :=
  ∀ (s : State) (w : TransWord) (i : Instr) (rest : List Turn) (ws : List TransWord),
    s.turns = .consumer :: rest → s.consumerIn = w :: ws → decode w = .ok i → i.agent = .consumer →
    ∃ (m : Memory) (r : Response),
      step s = .next { s with turns := rest, consumerIn := ws, pool := m, consumerResp := some r }

/-! ## Correlator -/

/-- R163: with at most 128 pattern bits, the distance is the number of the low `lengthBits` positions where the window and
P = p1 : p0 differ (R133: P[i] is compared with window[i]). -/
def Obligations.HammingDistanceCountsDifferingBits : Prop :=
  ∀ (spec : PatternSpec) (w : BitVec winBits), spec.lengthBits.toNat ≤ winBits →
    hammingDistance spec w = differingBits spec w

/-- R166: if no entry matches, FEED changes only `window` (and responds (0, 0)). -/
def Obligations.FeedWithoutMatchOnlyShifts : Prop :=
  ∀ (s : State) (b : Bool) (t : Word) (w : BitVec winBits),
    s.pub = none → s.mode = .hunt → IsShift s.window b w →
    (∀ spec ∈ s.table, spec.maxHammingDistance.toNat < hammingDistance spec w) →
    exec (.feed b t) s = .next { s with window := w, producerResp := some ⟨.ok, 0⟩ }

/-- R164, R165: the first entry in table order within its tolerance is the match, whatever the entries after it say; its match
actions are all of R165. That each byte of `stage` takes the next `draw()` of a counter is the model's choice (log 4). -/
def Obligations.FirstMatchingEntryStartsAFrame : Prop :=
  ∀ (s : State) (b : Bool) (t : Word) (w : BitVec winBits) (i : Nat) (spec : PatternSpec),
    s.pub = none → s.mode = .hunt → IsShift s.window b w →
    s.table[i]? = some spec → hammingDistance spec w ≤ spec.maxHammingDistance.toNat →
    (∀ j q, j < i → s.table[j]? = some q → q.maxHammingDistance.toNat < hammingDistance q w) →
    spec.frameLengthBits ≠ 0 →
    ∃ stage : Buffer, exec (.feed b t) s = .next { s with
      window := w
      act := some i
      rxTimeLatch := t
      bitCount := 0
      subCount := 0
      uartPhase := 0
      half := none
      base := spec.startOffset
      curParam := 0
      stage := stage
      draws := s.draws + 1024
      mode := spec.dataState
      producerResp := some ⟨.ok, 0⟩ }

/-- R167: a matched entry with `frameLengthBits = 0` completes within the match FEED: the hook runs on freshly drawn bytes and
`param` 0, publish is scheduled, and `mode` is back at HUNT. -/
def Obligations.ZeroLengthFrameCompletesAtItsMatch : Prop :=
  ∀ (s : State) (b : Bool) (t : Word) (w : BitVec winBits) (i : Nat) (spec : PatternSpec),
    s.pub = none → s.mode = .hunt → IsShift s.window b w →
    s.table[i]? = some spec → hammingDistance spec w ≤ spec.maxHammingDistance.toNat →
    (∀ j q, j < i → s.table[j]? = some q → q.maxHammingDistance.toNat < hammingDistance q w) →
    spec.frameLengthBits = 0 →
    ∃ (drawn stage : Buffer) (param : Half) (draws : Nat) (W : List FieldWrite) (u : State),
      HookGives spec drawn 0 t stage param ∧ CompleteW W ∧
      CompletedFrom s spec w stage s.fault t s.framingErrCount draws param W u ∧
      exec (.feed b t) s = .next u

/-- R160, R162, R168: in every state whose `mode` and `act` agree (R52) and with no publish pending, FEED completes with
response (0, 0), the window shifts by b in every mode, and outside HUNT `rxTimeLatch` and the installed table are untouched. -/
def Obligations.FeedCompletesInEveryMode : Prop :=
  ∀ (s : State) (b : Bool) (t : Word), s.pub = none → s.ActiveInv →
    ∃ u, exec (.feed b t) s = .next u ∧ IsShift s.window b u.window ∧ u.producerResp = some ⟨.ok, 0⟩ ∧
      u.table = s.table ∧ (s.mode ≠ .hunt → u.rxTimeLatch = s.rxTimeLatch)

/-- Log 11: outside HUNT, a FEED in a state where `act` names no installed entry (no run reaches one: R52) stops. -/
def Obligations.FeedWithoutAnActivePatternFaults : Prop :=
  ∀ (s : State) (b : Bool) (t : Word), s.pub = none → s.mode ≠ .hunt → s.activeSpec = none →
    exec (.feed b t) s = .fault .noActivePattern

/-! ## Collector -/

/-- R196, R191 to R195, R220: a FEED in DATA_RAW places the bit, MSB first, counts it, and completes the frame exactly when
`bitCount` reaches `frameLengthBits`. -/
def Obligations.RawFeedPlacesItsBit : Prop :=
  ∀ (s : State) (b : Bool) (t : Word) (w : BitVec winBits) (spec : PatternSpec),
    s.pub = none → s.mode = .dataRaw → s.activeSpec = some spec → IsShift s.window b w →
    ∃ (stage : Buffer) (fault : Bool) (subCount base : Half), PutEffect spec b false s stage fault subCount base ∧
      (s.bitCount + 1 ≠ spec.frameLengthBits →
        exec (.feed b t) s = .next { s with
          window := w, stage := stage, fault := fault, subCount := subCount, base := base,
          bitCount := s.bitCount + 1, producerResp := some ⟨.ok, 0⟩ }) ∧
      (s.bitCount + 1 = spec.frameLengthBits →
        ∃ (data : Buffer) (param : Half) (W : List FieldWrite) (u : State),
          HookGives spec stage s.curParam s.rxTimeLatch data param ∧ CompleteW W ∧
          CompletedFrom s spec w data fault s.rxTimeLatch s.framingErrCount s.draws param W u ∧
          exec (.feed b t) s = .next u)

/-- R200, R203: the start bit of a UART character: a 1 is counted as a framing violation, and nothing else follows from it. -/
def Obligations.UartStartBit : Prop :=
  ∀ (s : State) (b : Bool) (t : Word) (w : BitVec winBits) (spec : PatternSpec),
    s.pub = none → s.mode = .dataUart8N1 → s.activeSpec = some spec → IsShift s.window b w → s.uartPhase = 0 →
    exec (.feed b t) s = .next { s with
      window := w, uartPhase := 1, producerResp := some ⟨.ok, 0⟩,
      framingErrCount := if b then s.framingErrCount + 1 else s.framingErrCount }

/-- R200, R201: a UART data bit is placed, LSB first, only below `frameLengthBits`; it is counted in any case. -/
def Obligations.UartDataBit : Prop :=
  ∀ (s : State) (b : Bool) (t : Word) (w : BitVec winBits) (spec : PatternSpec) (phase : Fin 10),
    s.pub = none → s.mode = .dataUart8N1 → s.activeSpec = some spec → IsShift s.window b w →
    1 ≤ s.uartPhase.val → s.uartPhase.val ≤ 8 → phase.val = s.uartPhase.val + 1 →
    (s.bitCount.toNat < spec.frameLengthBits.toNat →
      ∃ (stage : Buffer) (fault : Bool) (subCount base : Half), PutEffect spec b true s stage fault subCount base ∧
        exec (.feed b t) s = .next { s with
          window := w, stage := stage, fault := fault, subCount := subCount, base := base,
          bitCount := s.bitCount + 1, uartPhase := phase, producerResp := some ⟨.ok, 0⟩ }) ∧
    (spec.frameLengthBits.toNat ≤ s.bitCount.toNat →
      exec (.feed b t) s = .next { s with
        window := w, bitCount := s.bitCount + 1, uartPhase := phase, producerResp := some ⟨.ok, 0⟩ })

/-- R200, R202, R203: the stop bit of a UART character: a 0 is counted as a framing violation; the frame completes if at least
`frameLengthBits` data bits are consumed, else the next character begins. -/
def Obligations.UartStopBit : Prop :=
  ∀ (s : State) (b : Bool) (t : Word) (w : BitVec winBits) (spec : PatternSpec) (framing : Word),
    s.pub = none → s.mode = .dataUart8N1 → s.activeSpec = some spec → IsShift s.window b w → s.uartPhase = 9 →
    framing = (if b then s.framingErrCount else s.framingErrCount + 1) →
    (s.bitCount.toNat < spec.frameLengthBits.toNat →
      exec (.feed b t) s = .next { s with
        window := w, uartPhase := 0, producerResp := some ⟨.ok, 0⟩, framingErrCount := framing }) ∧
    (spec.frameLengthBits.toNat ≤ s.bitCount.toNat →
      ∃ (data : Buffer) (param : Half) (W : List FieldWrite) (u : State),
        HookGives spec s.stage s.curParam s.rxTimeLatch data param ∧ CompleteW W ∧
        CompletedFrom s spec w data s.fault s.rxTimeLatch framing s.draws param W u ∧
        exec (.feed b t) s = .next u)

/-- R207, R208: the first half-bit is held; the second gives the XOR of the two, placed MSB first and counted, and the frame
completes exactly when `bitCount` reaches `frameLengthBits`. -/
def Obligations.BiphaseFeedPairsHalfBits : Prop :=
  ∀ (s : State) (b : Bool) (t : Word) (w : BitVec winBits) (spec : PatternSpec),
    s.pub = none → s.mode = .dataBiphaseS → s.activeSpec = some spec → IsShift s.window b w →
    (s.half = none →
      exec (.feed b t) s = .next { s with window := w, half := some b, producerResp := some ⟨.ok, 0⟩ }) ∧
    ∀ h, s.half = some h →
      ∃ (stage : Buffer) (fault : Bool) (subCount base : Half),
        PutEffect spec (h ^^ b) false s stage fault subCount base ∧
        (s.bitCount + 1 ≠ spec.frameLengthBits →
          exec (.feed b t) s = .next { s with
            window := w, half := none, stage := stage, fault := fault, subCount := subCount, base := base,
            bitCount := s.bitCount + 1, producerResp := some ⟨.ok, 0⟩ }) ∧
        (s.bitCount + 1 = spec.frameLengthBits →
          ∃ (data : Buffer) (param : Half) (W : List FieldWrite) (u : State),
            HookGives spec stage s.curParam s.rxTimeLatch data param ∧ CompleteW W ∧
            CompletedFrom s spec w data fault s.rxTimeLatch s.framingErrCount s.draws param W u ∧
            exec (.feed b t) s = .next u)

/-- R197 (which the spec marks "derived: from rules R191, R192 and R196"): a RAW frame takes exactly `frameLengthBits`
FEEDs after the match, not fewer; without sub-blocks and with hook 0 it schedules for publication the payload bits MSB
first, each XOR `inverted`. -/
def Obligations.RawFrameRoundTrip : Prop :=
  ∀ (s : State) (i : Nat) (spec : PatternSpec) (feeds : List (Bool × Word)),
    FreshFrame s i spec .dataRaw → feeds.length ≤ spec.frameLengthBits.toNat →
    ∃ u, feedAll feeds s = .next u ∧
      (feeds.length < spec.frameLengthBits.toNat → u.pub = none ∧ u.mode = .dataRaw ∧ u.bitCount.toNat = feeds.length) ∧
      (feeds.length = spec.frameLengthBits.toNat →
        u.mode = .hunt ∧ ∃ p, u.pub = some p ∧ p.opcode = spec.id ∧ p.rxTime = s.rxTimeLatch ∧
          (spec.subBlockBits = 0 → spec.postProcess = 0 →
            p.param = s.curParam ∧ HoldsMsbFirst spec (feeds.map Prod.fst) s.stage p.data))

/-- R202, R201, R203: a UART frame takes exactly 10 × ceil8(frameLengthBits) FEEDs after the match, whatever the bits are.
After any fewer, within a character too and at its last data bit too, nothing is scheduled, the mode is DATA_UART_8N1, and
`uartPhase` and `bitCount` are what R39 and R52 say; the last stop-bit FEED itself schedules the publish, no event of which is
done. Without sub-blocks and with hook 0 its data holds the first `frameLengthBits` data bits LSB first. -/
def Obligations.UartFrameRoundTrip : Prop :=
  ∀ (s : State) (i : Nat) (spec : PatternSpec) (feeds : List (Bool × Word)),
    FreshFrame s i spec .dataUart8N1 → feeds.length ≤ 10 * ((spec.frameLengthBits.toNat + 7) / 8) →
    ∃ u, feedAll feeds s = .next u ∧
      (feeds.length < 10 * ((spec.frameLengthBits.toNat + 7) / 8) →
        u.pub = none ∧ u.mode = .dataUart8N1 ∧ u.uartPhase.val = feeds.length % 10 ∧
        u.bitCount.toNat = 8 * (feeds.length / 10) + (feeds.length % 10 - 1)) ∧
      (feeds.length = 10 * ((spec.frameLengthBits.toNat + 7) / 8) →
        u.mode = .hunt ∧ ∃ p, u.pub = some p ∧ p.checked = false ∧ CompleteW p.pending ∧
          p.opcode = spec.id ∧ p.rxTime = s.rxTimeLatch ∧
          (spec.subBlockBits = 0 → spec.postProcess = 0 →
            p.param = s.curParam ∧
            ∀ chars : List (Bool × List Bool × Bool), (∀ c ∈ chars, c.2.1.length = 8) →
              feeds.map Prod.fst = chars.flatMap (fun c => uartCharacter c.1 c.2.1 c.2.2) →
              HoldsLsbFirst spec ((chars.flatMap fun c => c.2.1).take spec.frameLengthBits.toNat) s.stage p.data))

/-- R209 (which the spec marks "derived: from rules R207 and R208"): a BIPHASE frame takes exactly 2 × `frameLengthBits` FEEDs
after the match. After any fewer, at a first half-bit too, nothing is scheduled and the mode is DATA_BIPHASE_S; the last FEED
itself schedules the publish, no event of which is done. Without sub-blocks and with hook 0 biphase-encoded bits decode back to
the bits, for every choice of first half-bit levels. -/
def Obligations.BiphaseFrameRoundTrip : Prop :=
  ∀ (s : State) (i : Nat) (spec : PatternSpec) (feeds : List (Bool × Word)),
    FreshFrame s i spec .dataBiphaseS → feeds.length ≤ 2 * spec.frameLengthBits.toNat →
    ∃ u, feedAll feeds s = .next u ∧
      (feeds.length < 2 * spec.frameLengthBits.toNat →
        u.pub = none ∧ u.mode = .dataBiphaseS ∧ u.half.isSome = decide (feeds.length % 2 = 1) ∧
        u.bitCount.toNat = feeds.length / 2) ∧
      (feeds.length = 2 * spec.frameLengthBits.toNat →
        u.mode = .hunt ∧ ∃ p, u.pub = some p ∧ p.checked = false ∧ CompleteW p.pending ∧
          p.opcode = spec.id ∧ p.rxTime = s.rxTimeLatch ∧
          (spec.subBlockBits = 0 → spec.postProcess = 0 →
            p.param = s.curParam ∧
            ∀ pairs : List (Bool × Bool), feeds.map Prod.fst = pairs.flatMap (fun p => biphasePair p.1 p.2) →
              HoldsMsbFirst spec (pairs.map Prod.snd) s.stage p.data))

/-! ## Publish -/

/-- R241: the first producer step on a pending record reads the target slot's `valid`, counts an overrun if it is 1, and changes
nothing else but `checked`. -/
def Obligations.OverrunCheckIsTheFirstPublishEvent : Prop :=
  ∀ (s : State) (p : Publish) (k : Nat) (rest : List Turn),
    s.pub = some p → p.checked = false → s.turns = .producer k :: rest →
    step s = .next { s with
      turns := rest, pick := k, pub := some { p with checked := true },
      overrunCount := if s.slotValid p.slot = 1 then s.overrunCount + 1 else s.overrunCount }

/-- R242: after the check, each producer step removes one element of W and stores exactly its bytes; any element can be the
one, by the choice of the turn; `valid` is not touched. -/
def Obligations.FieldWritesInAnyOrder : Prop :=
  ∀ (s : State) (p : Publish) (rest : List Turn),
    s.pub = some p → p.checked = true → p.pending ≠ [] → p.pending.Nodup →
    (∀ k, s.turns = .producer k :: rest → ∃ f ∈ p.pending, ∃ m : Memory,
      step s = .next { s with
        turns := rest, pick := k, pool := m, pub := some { p with pending := p.pending.erase f } } ∧
      m.readByte (validAddr p.slot) = s.pool.readByte (validAddr p.slot) ∧
      ∀ a, m.readByte a = (p.storedByte f a).getD (s.pool.readByte a)) ∧
    ∀ f ∈ p.pending, ∃ k, ∃ m : Memory,
      step { s with turns := .producer k :: rest } = .next { s with
        turns := rest, pick := k, pool := m, pub := some { p with pending := p.pending.erase f } }

/-- R242, R104: when W is empty the producer's next step sets `valid` to 1 and empties `pub`. -/
def Obligations.ValidIsTheLastPublishEvent : Prop :=
  ∀ (s : State) (p : Publish) (k : Nat) (rest : List Turn),
    s.pub = some p → p.checked = true → p.pending = [] → s.turns = .producer k :: rest →
    ∃ m : Memory, ByteWritten s.pool (validAddr p.slot) 1 m ∧
      step s = .next { s with turns := rest, pick := k, pool := m, pub := none }

/-- R349, R242, R244, R161: whatever order the field writes are taken in, the producer's next 1029 turns on a fresh record are
its publish events: they leave the slot holding the snapshot with `valid` 1, every byte of the other slots untouched, the
presented words untouched, and the hold lifted. -/
def Obligations.PublishTakes1029ProducerTurnsInAnyOrder : Prop :=
  ∀ (s : State) (p : Publish) (picks : List Nat) (rest : List Turn),
    s.pub = some p → p.checked = false → CompleteW p.pending → picks.length = 1029 →
    s.turns = picks.map Turn.producer ++ rest →
    (∀ n, n < 1029 → ∃ v q, runSteps n s = .next v ∧ v.pub = some q ∧ v.producerIn = s.producerIn) ∧
    ∃ u : State, runSteps 1029 s = .next u ∧ u.pub = none ∧ u.turns = rest ∧ u.producerIn = s.producerIn ∧
      u.slotValid p.slot = 1 ∧ u.slotOpcode p.slot = p.opcode ∧ u.slotParam p.slot = p.param ∧
      u.slotRxTime p.slot = p.rxTime ∧ (∀ j, u.slotData p.slot j = p.data[j]) ∧
      (∀ a, ¬ (slotBase p.slot ≤ a ∧ a < slotBase p.slot + 0x408) → u.pool.readByte a = s.pool.readByte a) ∧
      u.overrunCount = if s.slotValid p.slot = 1 then s.overrunCount + 1 else s.overrunCount

/-- R246, R50: successive publishes target the slots in turn, across the wrap of `writeIndex` too. -/
def Obligations.PublishesCycleThroughTheSlots : Prop :=
  ∀ (s : State) (spec : PatternSpec), ∃ p q : Publish,
    (completeFrame spec s).pub = some p ∧ (completeFrame spec (completeFrame spec s)).pub = some q ∧
    p.slot.val = s.writeIndex.toNat % 4 ∧ q.slot.val = (p.slot.val + 1) % 4 ∧
    (completeFrame spec s).writeIndex.toNat = (s.writeIndex.toNat + 1) % 2 ^ 32

/-- R49, R53, R102, R103, R110: between two states of a step, a field of a slot changes only when the producer publishes
into that slot, and `valid` becomes 1 only by the last event of a publish into it. -/
def Obligations.OnlyAPublishWritesASlot : Prop :=
  ∀ (s u : State) (k : Fin poolSlots), step s = .next u →
    (u.slotOpcode k ≠ s.slotOpcode k ∨ u.slotParam k ≠ s.slotParam k ∨ u.slotRxTime k ≠ s.slotRxTime k ∨
        (∃ j, u.slotData k j ≠ s.slotData k j) →
      ∃ p, s.pub = some p ∧ p.slot = k ∧ p.checked = true ∧ p.pending ≠ [] ∧ u.slotValid k = s.slotValid k) ∧
    (u.slotValid k ≠ s.slotValid k →
      u.slotValid k = 0 ∨
      (u.slotValid k = 1 ∧ u.pub = none ∧ ∃ p, s.pub = some p ∧ p.slot = k ∧ p.checked = true ∧ p.pending = []))

/-- R110, log 1, log 2: a torn read is possible: a consumer that reads a slot's `rxTime` while a publish into it is under way
reads the old value in one interleaving and the new one in another. -/
def Obligations.TornReadIsPossible : Prop :=
  ∀ (s : State) (p : Publish) (cs : List TransWord),
    s.pub = some p → p.checked = true → FieldWrite.rxTime ∈ p.pending →
    s.consumerIn = encode (.poolRead32 (BitVec.ofNat 13 (rxTimeAddr p.slot))) :: cs →
    (∃ u, runSteps 1 { s with turns := [.consumer] } = .next u ∧
      u.consumerResp = some ⟨.ok, s.slotRxTime p.slot⟩) ∧
    ∃ k u, runSteps 2 { s with turns := [.producer k, .consumer] } = .next u ∧
      u.consumerResp = some ⟨.ok, p.rxTime⟩

/-! ## Consumer transactions -/

/-- R247, R96, R101: an aligned POOL_READ of 1, 2 or 4 bytes answers the bytes at its address, the lowest address in bits
7..0, zero-extended; a byte at a reserved offset reads 0; nothing but the response changes, and it does not wait. -/
def Obligations.PoolReadAnswersItsBytes : Prop :=
  ∀ (s : State) (addr : BitVec 13) (n : Nat) (i : Instr),
    (n = 1 ∧ i = .poolRead8 addr) ∨ (n = 2 ∧ i = .poolRead16 addr) ∨ (n = 4 ∧ i = .poolRead32 addr) →
    addr.toNat % n = 0 →
    ∃ r : Word, exec i s = .next { s with consumerResp := some ⟨.ok, r⟩ } ∧
      ∀ k, k < 4 → r.extractLsb' (8 * k) 8 =
        if k < n ∧ (addr.toNat + k) % 0x800 < 0x408 then s.pool.readByte (addr.toNat + k) else 0

/-- R96, R93: the fields of slot k as a consumer reads them: the word at 0x400 is `valid | opcode<<8 | param<<16`, the word at
0x404 is `rxTime`. -/
def Obligations.PoolReadSeesTheSlotFields : Prop :=
  ∀ (s : State) (k : Fin poolSlots),
    exec (.poolRead32 (BitVec.ofNat 13 (validAddr k))) s =
      .next { s with consumerResp := some ⟨.ok, s.slotParam k ++ s.slotOpcode k ++ s.slotValid k⟩ } ∧
    exec (.poolRead32 (BitVec.ofNat 13 (rxTimeAddr k))) s =
      .next { s with consumerResp := some ⟨.ok, s.slotRxTime k⟩ } ∧
    exec (.poolRead16 (BitVec.ofNat 13 (paramAddr k))) s =
      .next { s with consumerResp := some ⟨.ok, 0#16 ++ s.slotParam k⟩ } ∧
    ∀ j : Fin bufBytes, exec (.poolRead8 (BitVec.ofNat 13 (dataAddr k j))) s =
      .next { s with consumerResp := some ⟨.ok, 0#24 ++ s.slotData k j⟩ }

/-- R247, R249, R141, R312: a misaligned POOL_READ, a POOL_READ with size code 3 and a POOL_WRITE with a size code other than 0
respond (2, 0) and change nothing else. -/
def Obligations.PoolAlignErrorsChangeNothing : Prop :=
  ErrCode.poolAlign.code = 2 ∧
  ∀ (s : State) (addr : BitVec 13) (sz : BitVec 2) (v : Byte),
    (addr.toNat % 2 ≠ 0 → exec (.poolRead16 addr) s = .next { s with consumerResp := some ⟨.poolAlign, 0⟩ }) ∧
    (addr.toNat % 4 ≠ 0 → exec (.poolRead32 addr) s = .next { s with consumerResp := some ⟨.poolAlign, 0⟩ }) ∧
    exec (.poolReadSz3 addr) s = .next { s with consumerResp := some ⟨.poolAlign, 0⟩ } ∧
    (sz ≠ 0 → exec (.poolWriteBadSz sz addr v) s = .next { s with consumerResp := some ⟨.poolAlign, 0⟩ })

/-- R248, R102: POOL_WRITE of 0x00 to a `valid` byte clears it, of any other byte or to any other offset is ignored; no other
byte of POOL changes, and the response is (0, 0). -/
def Obligations.PoolWriteOnlyClearsValid : Prop :=
  ∀ (s : State) (addr : BitVec 13) (v : Byte),
    (addr.toNat % 0x800 = 0x400 ∧ v = 0 →
      ∃ m : Memory, ByteWritten s.pool addr.toNat 0 m ∧
        exec (.poolWrite8 addr v) s = .next { s with pool := m, consumerResp := some ⟨.ok, 0⟩ }) ∧
    (¬ (addr.toNat % 0x800 = 0x400 ∧ v = 0) →
      exec (.poolWrite8 addr v) s = .next { s with consumerResp := some ⟨.ok, 0⟩ })

/-- R103, R323: what a consumer's transaction answers and does to POOL depends on POOL alone: two states with the same bytes of
POOL answer the same, whatever the producer's private state is. -/
def Obligations.ConsumerSeesOnlyThePool : Prop :=
  ∀ (s u : State) (i : Instr), i.agent = .consumer → (∀ a, s.pool.readByte a = u.pool.readByte a) →
    ∃ (m m' : Memory) (r : Response),
      exec i s = .next { s with pool := m, consumerResp := some r } ∧
      exec i u = .next { u with pool := m', consumerResp := some r } ∧
      ∀ a, m.readByte a = m'.readByte a

/-! ## Host registers -/

/-- R270, R273, R62: REG_WRITE to STAGE word w of descriptor i < NPAT_MAX stores all 32 bits there, in every mode; every other
STAGE word, and every other field, is as before. -/
def Obligations.StageWriteStoresOneWord : Prop :=
  ∀ (s : State) (i w : Nat) (v : Word), s.pub = none → s.params.wf → i < s.params.npatMax → w < 8 →
    ∃ sdesc : List (Nat × Word),
      exec (.regWrite (BitVec.ofNat 12 (0x100 + 0x20 * i + 4 * w)) v) s =
        .next { s with sdesc := sdesc, producerResp := some ⟨.ok, 0⟩ } ∧
      ∀ j x, x < 8 → State.sdescWord { s with sdesc := sdesc } j x = if j = i ∧ x = w then v else s.sdescWord j x

/-- R270, R79, R60: an aligned REG_WRITE to a read-only register or to a reserved offset has no effect and responds (0, 0). -/
def Obligations.WritesToOtherRegistersAreIgnored : Prop :=
  ∀ (s : State) (off : BitVec 12) (v : Word), s.pub = none → off.toNat % 4 = 0 → off ≠ 0 →
    off.toNat < 0x100 ∨ 0x100 + 0x20 * s.params.npatMax ≤ off.toNat →
    exec (.regWrite off v) s = .next { s with producerResp := some ⟨.ok, 0⟩ }

/-- R272: a REG_WRITE or REG_READ with `off[1:0] ≠ 0` responds (1, 0) and changes no state. -/
def Obligations.MisalignedRegAccessChangesNothing : Prop :=
  ErrCode.regAlign.code = 1 ∧
  ∀ (s : State) (off : BitVec 12) (v : Word), s.pub = none → off.toNat % 4 ≠ 0 →
    exec (.regWrite off v) s = .next { s with producerResp := some ⟨.regAlign, 0⟩ } ∧
    exec (.regRead off) s = .next { s with producerResp := some ⟨.regAlign, 0⟩ }

/-- R61, R63 to R69: what the host reads of CMD, CFG_STATUS, PAT_COUNT, MODE and the frame counters (`patCount` and `act` within
their 8 bits, as R7 and R35 have them). -/
def Obligations.StatusRegistersReadAsListed : Prop :=
  ReadsAs 0x000 (fun _ => 0) ∧
  ReadsAs 0x004 (fun s =>
    s.cfgStatus.result.code.toNat + 0x10 * s.cfgStatus.cause.code.toNat + 0x100 * s.cfgStatus.entry.toNat) ∧
  ReadsAs 0x008 (fun s => s.patCount % 0x100) ∧
  ReadsAs 0x00C (fun s =>
    s.mode.code.toNat + match s.act with
      | some i => 0x100 * (i % 0x100) + 0x10000
      | none => 0) ∧
  ReadsAs 0x010 (fun s => s.bitCount.toNat) ∧
  ReadsAs 0x014 (fun s => s.subCount.toNat) ∧
  ReadsAs 0x018 (fun s => s.base.toNat) ∧
  ReadsAs 0x01C (fun s =>
    s.uartPhase.val + match s.half with
      | some true => 0x300
      | some false => 0x100
      | none => 0)

/-- R70 to R78: what the host reads of the window, the counters, FAULT and RXTIME. -/
def Obligations.WindowAndCountersReadAsListed : Prop :=
  ReadsAs 0x020 (fun s => s.window.toNat % 2 ^ 32) ∧
  ReadsAs 0x024 (fun s => s.window.toNat / 2 ^ 32 % 2 ^ 32) ∧
  ReadsAs 0x028 (fun s => s.window.toNat / 2 ^ 64 % 2 ^ 32) ∧
  ReadsAs 0x02C (fun s => s.window.toNat / 2 ^ 96 % 2 ^ 32) ∧
  ReadsAs 0x030 (fun s => s.writeIndex.toNat) ∧
  ReadsAs 0x034 (fun s => s.overrunCount.toNat) ∧
  ReadsAs 0x038 (fun s => s.framingErrCount.toNat) ∧
  ReadsAs 0x03C (fun s => if s.fault then 1 else 0) ∧
  ReadsAs 0x040 (fun s => s.rxTimeLatch.toNat)

/-- R62, R79: what the host reads of STAGE, and of every reserved offset. -/
def Obligations.StageAndReservedOffsetsRead : Prop :=
  ∀ s : State, s.pub = none → s.params.wf →
    (∀ i w, i < s.params.npatMax → w < 8 →
      exec (.regRead (BitVec.ofNat 12 (0x100 + 0x20 * i + 4 * w))) s =
        .next { s with producerResp := some ⟨.ok, s.sdescWord i w⟩ }) ∧
    ∀ off : BitVec 12, off.toNat % 4 = 0 →
      (0x044 ≤ off.toNat ∧ off.toNat < 0x100) ∨ 0x100 + 0x20 * s.params.npatMax ≤ off.toNat →
      exec (.regRead off) s = .next { s with producerResp := some ⟨.ok, 0⟩ }

/-! ## Commands -/

/-- R275, over words: a word of kind 2 (REG_WRITE) and offset 0x000 (CMD), whose low half T[31:0] is the command word C, decodes
to the command that C[3:0] selects: NOP, OPEN, CONFIGURE with count C[15:8], or a reserved command (ILLEGAL_COMMAND). No other
bit of the word matters. And the decoder's dispatch and `command(C)` agree: executing what the word decodes to is executing
the REG_WRITE of C to offset 0x000. -/
def Obligations.RegWriteToCmdRunsTheCommand : Prop :=
  ∀ w : TransWord, w.extractLsb' 60 4 = 0x2 → w.extractLsb' 32 12 = 0x000 →
    (w.toNat % 16 = 0x0 → decode w = .ok .cmdNop) ∧
    (w.toNat % 16 = 0x1 → decode w = .ok .cmdOpen) ∧
    (w.toNat % 16 = 0x2 → ∀ count : Byte, count.toNat = w.toNat / 2 ^ 8 % 2 ^ 8 → decode w = .ok (.cmdConfigure count)) ∧
    (w.toNat % 16 = 0x3 → decode w = .ok .cmdIllegal3) ∧
    (∀ op : BitVec 4, op.toNat = w.toNat % 16 → 4 ≤ op.toNat → op.toNat < 8 → decode w = .ok (.cmdIllegal4To7 op)) ∧
    (∀ op : BitVec 4, op.toNat = w.toNat % 16 → 8 ≤ op.toNat → decode w = .ok (.cmdIllegal8ToF op)) ∧
    ∀ (i : Instr) (s : State), decode w = .ok i → exec i s = exec (.regWrite 0x000 (w.extractLsb' 0 32)) s

/-- R276: NOP changes no state (it responds (0, 0)). -/
def Obligations.NopChangesNothing : Prop :=
  ∀ s : State, s.pub = none → exec .cmdNop s = .next { s with producerResp := some ⟨.ok, 0⟩ }

/-- R289: a reserved command sets `cfgStatus` to (ILLEGAL_COMMAND, 0, 0) and changes nothing else. -/
def Obligations.ReservedCommandsOnlySetCfgStatus : Prop :=
  ∀ (s : State) (op : BitVec 4) (i : Instr), s.pub = none →
    i = .cmdIllegal3 ∨ i = .cmdIllegal4To7 op ∨ i = .cmdIllegal8ToF op →
    exec i s = .next { s with
      cfgStatus := { result := .illegalCommand, cause := .none, entry := 0 }, producerResp := some ⟨.ok, 0⟩ }

/-- R277, R340: OPEN performs reset: every element R340 writes has its value, `valid` is 0 in every slot, no other byte of POOL
changes, and `stage` is left open. That OPEN gives each byte of `stage` the next `draw()` is the model's choice (log 5). -/
def Obligations.OpenResets : Prop :=
  ∀ s : State, s.pub = none →
    ∃ (m : Memory) (stage : Buffer),
      exec .cmdOpen s = .next { s with
        window := 0, mode := .hunt, pool := m, table := [], act := none, bitCount := 0, subCount := 0, base := 0,
        uartPhase := 0, half := none, rxTimeLatch := 0, curParam := 0, overrunCount := 0, framingErrCount := 0,
        fault := false, cfgStatus := { result := .none, cause := .none, entry := 0 }, sdesc := [], writeIndex := 0,
        stage := stage, draws := s.draws + 1024, producerResp := some ⟨.ok, 0⟩ } ∧
      (∀ k, m.readByte (validAddr k) = 0) ∧
      ∀ a, (∀ k, a ≠ validAddr k) → m.readByte a = s.pool.readByte a

/-- R138: which bits of the eight STAGE words each field of a descriptor is. -/
def Obligations.DescriptorFieldsAreTheirBits : Prop :=
  ∀ d : Nat → Word,
    (decodeDescriptor d).p0.toNat = (d 1).toNat * 2 ^ 32 + (d 0).toNat ∧
    (decodeDescriptor d).p1.toNat = (d 3).toNat * 2 ^ 32 + (d 2).toNat ∧
    (decodeDescriptor d).id.toNat = (d 4).toNat % 2 ^ 8 ∧
    (decodeDescriptor d).lengthBits.toNat = (d 4).toNat / 2 ^ 8 % 2 ^ 8 ∧
    (decodeDescriptor d).maxHammingDistance.toNat = (d 4).toNat / 2 ^ 16 % 2 ^ 8 ∧
    (decodeDescriptor d).dataState.code.toNat = (d 4).toNat / 2 ^ 24 % 4 ∧
    (decodeDescriptor d).inverted = decide ((d 4).toNat / 2 ^ 26 % 2 = 1) ∧
    (decodeDescriptor d).frameLengthBits.toNat = (d 5).toNat % 2 ^ 16 ∧
    (decodeDescriptor d).startOffset.toNat = (d 5).toNat / 2 ^ 16 ∧
    (decodeDescriptor d).subBlockBits.toNat = (d 6).toNat % 2 ^ 16 ∧
    (decodeDescriptor d).subBlockBytes.toNat = (d 6).toNat / 2 ^ 16 ∧
    (decodeDescriptor d).postProcess.toNat = (d 7).toNat % 2 ^ 8

/-- R279, R282 to R285: each cause is reported exactly when its check fails and no check before it does. -/
def Obligations.ChecksAreTriedInOrder : Prop :=
  ∀ q : PatternSpec,
    (firstFailingCheck q = .lengthTooLong ↔ 128 < q.lengthBits.toNat) ∧
    (firstFailingCheck q = .rangeOverflow ↔
      q.lengthBits.toNat ≤ 128 ∧ 1024 < q.startOffset.toNat + (q.frameLengthBits.toNat + 7) / 8) ∧
    (firstFailingCheck q = .subblockMismatch ↔
      q.lengthBits.toNat ≤ 128 ∧ q.startOffset.toNat + (q.frameLengthBits.toNat + 7) / 8 ≤ 1024 ∧
      0 < q.subBlockBits.toNat ∧ q.subBlockBytes.toNat ≠ (q.subBlockBits.toNat + 7) / 8) ∧
    (firstFailingCheck q = .badDataState ↔
      q.lengthBits.toNat ≤ 128 ∧ q.startOffset.toNat + (q.frameLengthBits.toNat + 7) / 8 ≤ 1024 ∧
      (q.subBlockBits.toNat = 0 ∨ q.subBlockBytes.toNat = (q.subBlockBits.toNat + 7) / 8) ∧ q.dataState.code = 0) ∧
    (firstFailingCheck q = .none ↔
      q.lengthBits.toNat ≤ 128 ∧ q.startOffset.toNat + (q.frameLengthBits.toNat + 7) / 8 ≤ 1024 ∧
      (q.subBlockBits.toNat = 0 ∨ q.subBlockBytes.toNat = (q.subBlockBits.toNat + 7) / 8) ∧ q.dataState.code ≠ 0) ∧
    firstFailingCheck q ≠ .countTooLarge

/-- R280: a count greater than NPAT_MAX is rejected with COUNT_TOO_LARGE and entry 0, and changes nothing else; a count of 0
is legal and installs an empty table. -/
def Obligations.CountTooLargeIsRejected : Prop :=
  ∀ (s : State) (count : Byte), s.pub = none →
    (s.params.npatMax < count.toNat →
      exec (.cmdConfigure count) s = .next { s with
        cfgStatus := { result := .rejected, cause := .countTooLarge, entry := 0 }, producerResp := some ⟨.ok, 0⟩ }) ∧
    (count = 0 →
      exec (.cmdConfigure count) s = .next { s with
        table := [], cfgStatus := { result := .accepted, cause := .none, entry := 0 }, mode := .hunt, act := none,
        bitCount := 0, subCount := 0, base := 0, uartPhase := 0, half := none, curParam := 0,
        producerResp := some ⟨.ok, 0⟩ })

/-- R278, R286, R317: the first failing entry in table order, and its first failing check, reject the table: `cfgStatus` says
which, and nothing else changes, a frame in progress included. -/
def Obligations.FirstFailingEntryRejectsTheTable : Prop :=
  ∀ (s : State) (count : Byte) (i : Nat) (entry : Byte), s.pub = none → count.toNat ≤ s.params.npatMax →
    i < count.toNat → entry.toNat = i →
    firstFailingCheck (decodeDescriptor (s.sdescWord i)) ≠ .none →
    (∀ j, j < i → firstFailingCheck (decodeDescriptor (s.sdescWord j)) = .none) →
    exec (.cmdConfigure count) s = .next { s with
      cfgStatus :=
        { result := .rejected, cause := firstFailingCheck (decodeDescriptor (s.sdescWord i)), entry := entry },
      producerResp := some ⟨.ok, 0⟩ }

/-- R278, R287, R288: when every descriptor passes, CONFIGURE installs exactly the descriptors 0..count-1 in table order,
reports ACCEPTED, and aborts a frame in progress; window, `rxTimeLatch`, `stage`, `fault`, the event counters, `writeIndex`,
`sdesc` and the pool are as before. -/
def Obligations.PassingTableIsInstalledWhole : Prop :=
  ∀ (s : State) (count : Byte), s.pub = none → count.toNat ≤ s.params.npatMax →
    (∀ j, j < count.toNat → firstFailingCheck (decodeDescriptor (s.sdescWord j)) = .none) →
    ∃ table : List PatternSpec, table.length = count.toNat ∧
      (∀ j, j < count.toNat → table[j]? = some (decodeDescriptor (s.sdescWord j))) ∧
      exec (.cmdConfigure count) s = .next { s with
        table := table, cfgStatus := { result := .accepted, cause := .none, entry := 0 }, mode := .hunt, act := none,
        bitCount := 0, subCount := 0, base := 0, uartPhase := 0, half := none, curParam := 0,
        producerResp := some ⟨.ok, 0⟩ }

/-- R290 (which the spec marks "derived: from rules R278, R282 and R286"): a table whose first bad descriptor, at index i,
has `lengthBits = 200` makes CFG_STATUS read `0x22 | (i << 8)`, and leaves table and mode as they were. -/
def Obligations.LengthTwoHundredIsRejected : Prop :=
  ∀ (s : State) (count : Byte) (i : Nat), s.pub = none → count.toNat ≤ s.params.npatMax → i < count.toNat →
    (decodeDescriptor (s.sdescWord i)).lengthBits = 200 →
    (∀ j, j < i → firstFailingCheck (decodeDescriptor (s.sdescWord j)) = .none) →
    ∃ u v : State, exec (.cmdConfigure count) s = .next u ∧ u.producerResp = some ⟨.ok, 0⟩ ∧ u.table = s.table ∧
      u.mode = s.mode ∧ exec (.regRead 0x004) u = .next v ∧
      v.producerResp = some ⟨.ok, BitVec.ofNat 32 (0x22 + 0x100 * i)⟩

/-! ## Whole-machine rules -/

/-- R80, R340, R341: every element the spec gives a reset value has it, after power-on and after OPEN; OPEN leaves every byte of
POOL but the `valid` bytes as it was. -/
def Obligations.ResetValuesOfTheSpec : Prop :=
  State.reset.HasResetValues ∧
  ∀ s : State, s.pub = none → ∃ u : State, exec .cmdOpen s = .next u ∧ u.HasResetValues ∧
    ∀ a, (∀ k, a ≠ validAddr k) → u.pool.readByte a = s.pool.readByte a

/-- R33: the mode codes; reset is HUNT; `mode` changes only at a match, at completion (both of FEED), at a successful CONFIGURE,
and at reset (OPEN). -/
def Obligations.ModeChangesOnlyByFeedConfigureOpen : Prop :=
  Mode.hunt.code = 0 ∧ Mode.dataRaw.code = 1 ∧ Mode.dataUart8N1.code = 2 ∧ Mode.dataBiphaseS.code = 3 ∧
  State.reset.mode = .hunt ∧
  ∀ (s u : State) (i : Instr), exec i s = .next u → i.wellFormed = true → u.mode ≠ s.mode →
    (∃ b t, i = .feed b t ∧ s.pub = none ∧
      ((s.mode = .hunt ∧ ∃ j spec, u.act = some j ∧ s.table[j]? = some spec ∧ u.mode = spec.dataState ∧
          hammingDistance spec u.window ≤ spec.maxHammingDistance.toNat) ∨
        (s.mode ≠ .hunt ∧ u.mode = .hunt ∧ ∃ p, u.pub = some p ∧ CompleteW p.pending))) ∨
    i = .cmdOpen ∨ ∃ count, i = .cmdConfigure count ∧ u.cfgStatus.result = .accepted

/-- R34, R108: only a successful CONFIGURE and reset change the installed table; R314: only reset clears `fault`. -/
def Obligations.OnlyConfigureAndOpenChangeTheTable : Prop :=
  ∀ (s u : State) (i : Instr), exec i s = .next u → i.wellFormed = true →
    (u.table ≠ s.table → i = .cmdOpen ∨ ∃ count, i = .cmdConfigure count ∧ u.cfgStatus.result = .accepted) ∧
    (s.fault = true → u.fault = false → i = .cmdOpen)

/-- R52 (all four invariants) and R9 (no 16-bit counter wraps): every step keeps the engine's invariant. -/
def Obligations.EveryStepKeepsTheEngineInvariant : Prop :=
  ∀ s u : State, s.EngineInv → step s = .next u → u.EngineInv

/-- The engine's invariant holds at reset. -/
def Obligations.EngineInvariantAtReset : Prop := State.reset.EngineInv

/-- POOL and STAGE keep their canonical forms, `valid` stays 0 or 1, reserved offsets stay unwritten (R93, R94, R48, R62),
and the pending set stays without repeats (R240), in every step. -/
def Obligations.EveryStepKeepsTheStorageInvariants : Prop :=
  ∀ s u : State, s.PoolInv ∧ s.StageInv ∧ s.PublishInv ∧ s.params.wf → step s = .next u →
    u.PoolInv ∧ u.StageInv ∧ u.PublishInv ∧ u.params.wf

/-- The storage invariants hold at reset. -/
def Obligations.StorageInvariantsAtReset : Prop :=
  State.reset.PoolInv ∧ State.reset.StageInv ∧ State.reset.PublishInv ∧ State.reset.params.wf

/-- R52, log 11: from a state with the engine's invariant no run meets a fault, whatever is presented and however the agents
are interleaved. -/
def Obligations.RunsAreSafe : Prop := ∀ (s : State) (n : Nat), s.EngineInv → SafeRun n s

/-- R94: with POOL's invariant a `valid` byte reads 0 or 1. -/
def Obligations.ValidReadsZeroOrOne : Prop :=
  ∀ (s : State) (k : Fin poolSlots), s.PoolInv → s.slotValid k = 0 ∨ s.slotValid k = 1
end

