-- ==== Sys2Proof/Laws/Memory.lean ====
section
/-! SUPPORT. The laws of cells, POOL and STAGE words: read after write, and that every write keeps the canonical form. -/

namespace Sys2Proof.Machine

variable {β : Type}

/-! ### Cells -/

@[simp] theorem cellsRead_erase (d : β) (m : List (Nat × β)) (a x : Nat) :
    cellsRead d (cellsErase m a) x = if x = a then d else cellsRead d m x := by
  induction m with
  | nil => simp [cellsErase, cellsRead]
  | cons c rest ih =>
    simp only [cellsErase] at ih ⊢
    by_cases hc : c.1 = a
    · simp only [hc, ne_eq, not_true, decide_false, Bool.false_eq_true, not_false_eq_true, List.filter_cons_of_neg, ih,
        cellsRead]
      by_cases hx : x = a
      · simp [hx]
      · simp [hx, Ne.symm hx]
    · simp only [ne_eq, hc, not_false_eq_true, decide_true, List.filter_cons_of_pos, cellsRead, ih]
      by_cases hx : c.1 = x
      · simp [hx, show x ≠ a from fun h => hc (hx.trans h)]
      · simp [hx]

theorem cellsRead_insert (d : β) (m : List (Nat × β)) (a : Nat) (v : β) (x : Nat) (h : ∀ c ∈ m, c.1 ≠ a) :
    cellsRead d (cellsInsert m a v) x = if x = a then v else cellsRead d m x := by
  induction m with
  | nil => simp [cellsInsert, cellsRead, eq_comm]
  | cons c rest ih =>
    have hc : c.1 ≠ a := h c (by simp)
    have ih := ih fun c' h' => h c' (by simp [h'])
    simp only [cellsInsert]
    split
    · simp [cellsRead, eq_comm]
    · simp only [cellsRead, ih]
      by_cases hx : c.1 = x
      · simp [hx, show x ≠ a from fun h' => hc (hx.trans h')]
      · simp [hx]

theorem cellsErase_ne (m : List (Nat × β)) (a : Nat) : ∀ c ∈ cellsErase m a, c.1 ≠ a := by
  simp [cellsErase]

/-- Read after write, at every address, on every list. -/
@[simp] theorem cellsRead_write [DecidableEq β] (d : β) (m : List (Nat × β)) (a : Nat) (v : β) (x : Nat) :
    cellsRead d (cellsWrite d m a v) x = if x = a then v else cellsRead d m x := by
  unfold cellsWrite
  split
  · rename_i h; simp [h]
  · rw [cellsRead_insert _ _ _ _ _ (cellsErase_ne m a), cellsRead_erase]
    split <;> rfl

theorem mem_cellsInsert (m : List (Nat × β)) (a : Nat) (v : β) (c : Nat × β) :
    c ∈ cellsInsert m a v ↔ c = (a, v) ∨ c ∈ m := by
  induction m with
  | nil => simp [cellsInsert]
  | cons e rest ih =>
    simp only [cellsInsert]
    split
    · simp
    · simp [ih, or_left_comm]

/-- What a written list holds: the new entry, unless it is the default, and the old entries of other keys. -/
theorem mem_cellsWrite [DecidableEq β] (d : β) (m : List (Nat × β)) (a : Nat) (v : β) (c : Nat × β) :
    c ∈ cellsWrite d m a v ↔ (c = (a, v) ∧ v ≠ d) ∨ (c ∈ m ∧ c.1 ≠ a) := by
  unfold cellsWrite
  split
  · rename_i h; simp [h, cellsErase]
  · rename_i h; simp [mem_cellsInsert, h, cellsErase]

theorem cellsInsert_pairwise (m : List (Nat × β)) (a : Nat) (v : β) (hm : m.Pairwise fun x y => x.1 < y.1)
    (h : ∀ c ∈ m, c.1 ≠ a) : (cellsInsert m a v).Pairwise fun x y => x.1 < y.1 := by
  induction m with
  | nil => simp [cellsInsert]
  | cons c rest ih =>
    have hc : c.1 ≠ a := h c (by simp)
    rw [List.pairwise_cons] at hm
    simp only [cellsInsert]
    split
    · rename_i hlt
      rw [List.pairwise_cons, List.pairwise_cons]
      refine ⟨fun y hy => ?_, hm⟩
      rcases List.mem_cons.1 hy with rfl | hy
      · exact hlt
      · exact Nat.lt_trans hlt (hm.1 y hy)
    · rw [List.pairwise_cons]
      refine ⟨fun y hy => ?_, ih hm.2 fun c' h' => h c' (by simp [h'])⟩
      rcases (mem_cellsInsert rest a v y).1 hy with rfl | hy
      · show c.1 < a
        omega
      · exact hm.1 y hy

theorem cellsWf_iff [DecidableEq β] (d : β) (m : List (Nat × β)) :
    cellsWf d m = true ↔ (m.Pairwise fun x y => x.1 < y.1) ∧ ∀ c ∈ m, c.2 ≠ d := by
  simp [cellsWf]

/-- A write keeps the canonical form. -/
theorem cellsWrite_wf [DecidableEq β] (d : β) (m : List (Nat × β)) (a : Nat) (v : β) (h : cellsWf d m = true) :
    cellsWf d (cellsWrite d m a v) = true := by
  rw [cellsWf_iff] at h ⊢
  constructor
  · have he : (cellsErase m a).Pairwise fun x y => x.1 < y.1 := h.1.filter _
    unfold cellsWrite
    split
    · exact he
    · exact cellsInsert_pairwise _ a v he (cellsErase_ne m a)
  · intro c hc
    rcases (mem_cellsWrite d m a v c).1 hc with ⟨rfl, hv⟩ | ⟨hm, -⟩
    · exact hv
    · exact h.2 c hm

/-! ### POOL -/

@[simp] theorem Memory.readByte_writeByte (m : Memory) (a : Nat) (v : Byte) (x : Nat) :
    (m.writeByte a v).readByte x = if x = a then v else m.readByte x :=
  cellsRead_write Memory.unlisted m a v x

theorem Memory.writeByte_wf (m : Memory) (a : Nat) (v : Byte) (h : m.wf = true) : (m.writeByte a v).wf = true :=
  cellsWrite_wf Memory.unlisted m a v h

theorem Memory.writeLE_wf (n : Nat) : ∀ (m : Memory) (a : Nat) (v : Word), m.wf = true → (m.writeLE a n v).wf = true := by
  induction n with
  | zero => intro m a v h; exact h
  | succ n ih => intro m a v h; exact ih _ _ _ (m.writeByte_wf a _ h)

/-- A little-endian write of n bytes (R96): byte k holds bits 8k+7..8k of v, every other byte is as before. -/
theorem Memory.readByte_writeLE (n : Nat) : ∀ (m : Memory) (a : Nat) (v : Word) (x : Nat),
    (m.writeLE a n v).readByte x = if a ≤ x ∧ x < a + n then (v >>> (8 * (x - a))).setWidth 8 else m.readByte x := by
  induction n with
  | zero => intro m a v x; simp [Memory.writeLE]
  | succ n ih =>
    intro m a v x
    simp only [Memory.writeLE, ih, Memory.readByte_writeByte]
    by_cases hx : x = a
    · subst hx; simp
    · by_cases h1 : a + 1 ≤ x ∧ x < a + 1 + n
      · rw [if_pos h1, if_pos (by omega), ← BitVec.shiftRight_add,
          show 8 + 8 * (x - (a + 1)) = 8 * (x - a) by omega]
      · rw [if_neg h1, if_neg hx, if_neg (by omega)]

/-- What a little-endian write lists. -/
theorem Memory.mem_writeLE (n : Nat) : ∀ (m : Memory) (a : Nat) (v : Word) (c : Host.Cell),
    c ∈ m.writeLE a n v → c ∈ m ∨ (a ≤ c.1 ∧ c.1 < a + n ∧ c.2 = (v >>> (8 * (c.1 - a))).setWidth 8) := by
  induction n with
  | zero => intro m a v c h; exact .inl h
  | succ n ih =>
    intro m a v c h
    rcases ih _ _ _ c h with h | ⟨h1, h2, h3⟩
    · rcases (mem_cellsWrite _ m a _ c).1 h with ⟨rfl, -⟩ | ⟨hm, -⟩
      · exact .inr ⟨Nat.le_refl _, by simp, by simp⟩
      · exact .inl hm
    · refine .inr ⟨by omega, by omega, ?_⟩
      rw [h3, ← BitVec.shiftRight_add, show 8 + 8 * (c.1 - (a + 1)) = 8 * (c.1 - a) by omega]

/-! ### STAGE words -/

/-- R48: "a read returns the last value written". -/
theorem State.sdescWord_setSdescWord (s : State) (i w : Nat) (v : Word) (j x : Nat) (hw : w < 8) (hx : x < 8) :
    (s.setSdescWord i w v).sdescWord j x = if j = i ∧ x = w then v else s.sdescWord j x := by
  simp only [State.sdescWord, State.setSdescWord, cellsRead_write, sdescKey]
  by_cases h : j = i ∧ x = w
  · simp [h]
  · rw [if_neg (by omega), if_neg h]

end Sys2Proof.Machine
end

