-- ==== Sys2Proof/Laws/State.lean ====
section
/-! SUPPORT. One lemma per field per update of State: what each shared update writes, and that it leaves every other field
alone. A proof cites these (they are simp lemmas) and never unfolds a record update. -/

namespace Sys2Proof.Machine

variable (s : State)

/-! ### Ops: HUNT with every frame counter cleared -/

@[simp] theorem clearFrame_window : (clearFrame s).window = s.window := rfl
@[simp] theorem clearFrame_mode : (clearFrame s).mode = .hunt := rfl
@[simp] theorem clearFrame_table : (clearFrame s).table = s.table := rfl
@[simp] theorem clearFrame_act : (clearFrame s).act = none := rfl
@[simp] theorem clearFrame_bitCount : (clearFrame s).bitCount = 0 := rfl
@[simp] theorem clearFrame_subCount : (clearFrame s).subCount = 0 := rfl
@[simp] theorem clearFrame_base : (clearFrame s).base = 0 := rfl
@[simp] theorem clearFrame_uartPhase : (clearFrame s).uartPhase = 0 := rfl
@[simp] theorem clearFrame_half : (clearFrame s).half = none := rfl
@[simp] theorem clearFrame_rxTimeLatch : (clearFrame s).rxTimeLatch = s.rxTimeLatch := rfl
@[simp] theorem clearFrame_curParam : (clearFrame s).curParam = 0 := rfl
@[simp] theorem clearFrame_overrunCount : (clearFrame s).overrunCount = s.overrunCount := rfl
@[simp] theorem clearFrame_framingErrCount : (clearFrame s).framingErrCount = s.framingErrCount := rfl
@[simp] theorem clearFrame_stage : (clearFrame s).stage = s.stage := rfl
@[simp] theorem clearFrame_fault : (clearFrame s).fault = s.fault := rfl
@[simp] theorem clearFrame_cfgStatus : (clearFrame s).cfgStatus = s.cfgStatus := rfl
@[simp] theorem clearFrame_sdesc : (clearFrame s).sdesc = s.sdesc := rfl
@[simp] theorem clearFrame_pool : (clearFrame s).pool = s.pool := rfl
@[simp] theorem clearFrame_writeIndex : (clearFrame s).writeIndex = s.writeIndex := rfl
@[simp] theorem clearFrame_pub : (clearFrame s).pub = s.pub := rfl
@[simp] theorem clearFrame_params : (clearFrame s).params = s.params := rfl
@[simp] theorem clearFrame_draws : (clearFrame s).draws = s.draws := rfl
@[simp] theorem clearFrame_turns : (clearFrame s).turns = s.turns := rfl
@[simp] theorem clearFrame_pick : (clearFrame s).pick = s.pick := rfl
@[simp] theorem clearFrame_producerIn : (clearFrame s).producerIn = s.producerIn := rfl
@[simp] theorem clearFrame_consumerIn : (clearFrame s).consumerIn = s.consumerIn := rfl
@[simp] theorem clearFrame_producerResp : (clearFrame s).producerResp = s.producerResp := rfl
@[simp] theorem clearFrame_consumerResp : (clearFrame s).consumerResp = s.consumerResp := rfl

/-! ### Ops: fresh draws in STAGEBUF -/

@[simp] theorem drawStage_window : (s.drawStage).window = s.window := rfl
@[simp] theorem drawStage_mode : (s.drawStage).mode = s.mode := rfl
@[simp] theorem drawStage_table : (s.drawStage).table = s.table := rfl
@[simp] theorem drawStage_act : (s.drawStage).act = s.act := rfl
@[simp] theorem drawStage_bitCount : (s.drawStage).bitCount = s.bitCount := rfl
@[simp] theorem drawStage_subCount : (s.drawStage).subCount = s.subCount := rfl
@[simp] theorem drawStage_base : (s.drawStage).base = s.base := rfl
@[simp] theorem drawStage_uartPhase : (s.drawStage).uartPhase = s.uartPhase := rfl
@[simp] theorem drawStage_half : (s.drawStage).half = s.half := rfl
@[simp] theorem drawStage_rxTimeLatch : (s.drawStage).rxTimeLatch = s.rxTimeLatch := rfl
@[simp] theorem drawStage_curParam : (s.drawStage).curParam = s.curParam := rfl
@[simp] theorem drawStage_overrunCount : (s.drawStage).overrunCount = s.overrunCount := rfl
@[simp] theorem drawStage_framingErrCount : (s.drawStage).framingErrCount = s.framingErrCount := rfl
@[simp] theorem drawStage_stage : (s.drawStage).stage = drawBuffer s.draws := rfl
@[simp] theorem drawStage_fault : (s.drawStage).fault = s.fault := rfl
@[simp] theorem drawStage_cfgStatus : (s.drawStage).cfgStatus = s.cfgStatus := rfl
@[simp] theorem drawStage_sdesc : (s.drawStage).sdesc = s.sdesc := rfl
@[simp] theorem drawStage_pool : (s.drawStage).pool = s.pool := rfl
@[simp] theorem drawStage_writeIndex : (s.drawStage).writeIndex = s.writeIndex := rfl
@[simp] theorem drawStage_pub : (s.drawStage).pub = s.pub := rfl
@[simp] theorem drawStage_params : (s.drawStage).params = s.params := rfl
@[simp] theorem drawStage_draws : (s.drawStage).draws = s.draws + bufBytes := rfl
@[simp] theorem drawStage_turns : (s.drawStage).turns = s.turns := rfl
@[simp] theorem drawStage_pick : (s.drawStage).pick = s.pick := rfl
@[simp] theorem drawStage_producerIn : (s.drawStage).producerIn = s.producerIn := rfl
@[simp] theorem drawStage_consumerIn : (s.drawStage).consumerIn = s.consumerIn := rfl
@[simp] theorem drawStage_producerResp : (s.drawStage).producerResp = s.producerResp := rfl
@[simp] theorem drawStage_consumerResp : (s.drawStage).consumerResp = s.consumerResp := rfl

/-! ### Ops: a STAGE word -/

@[simp] theorem setSdescWord_window (i w : Nat) (v : Word) : (s.setSdescWord i w v).window = s.window := rfl
@[simp] theorem setSdescWord_mode (i w : Nat) (v : Word) : (s.setSdescWord i w v).mode = s.mode := rfl
@[simp] theorem setSdescWord_table (i w : Nat) (v : Word) : (s.setSdescWord i w v).table = s.table := rfl
@[simp] theorem setSdescWord_act (i w : Nat) (v : Word) : (s.setSdescWord i w v).act = s.act := rfl
@[simp] theorem setSdescWord_bitCount (i w : Nat) (v : Word) : (s.setSdescWord i w v).bitCount = s.bitCount := rfl
@[simp] theorem setSdescWord_subCount (i w : Nat) (v : Word) : (s.setSdescWord i w v).subCount = s.subCount := rfl
@[simp] theorem setSdescWord_base (i w : Nat) (v : Word) : (s.setSdescWord i w v).base = s.base := rfl
@[simp] theorem setSdescWord_uartPhase (i w : Nat) (v : Word) : (s.setSdescWord i w v).uartPhase = s.uartPhase := rfl
@[simp] theorem setSdescWord_half (i w : Nat) (v : Word) : (s.setSdescWord i w v).half = s.half := rfl
@[simp] theorem setSdescWord_rxTimeLatch (i w : Nat) (v : Word) : (s.setSdescWord i w v).rxTimeLatch = s.rxTimeLatch := rfl
@[simp] theorem setSdescWord_curParam (i w : Nat) (v : Word) : (s.setSdescWord i w v).curParam = s.curParam := rfl
@[simp] theorem setSdescWord_overrunCount (i w : Nat) (v : Word) : (s.setSdescWord i w v).overrunCount = s.overrunCount := rfl
@[simp] theorem setSdescWord_framingErrCount (i w : Nat) (v : Word) : (s.setSdescWord i w v).framingErrCount = s.framingErrCount := rfl
@[simp] theorem setSdescWord_stage (i w : Nat) (v : Word) : (s.setSdescWord i w v).stage = s.stage := rfl
@[simp] theorem setSdescWord_fault (i w : Nat) (v : Word) : (s.setSdescWord i w v).fault = s.fault := rfl
@[simp] theorem setSdescWord_cfgStatus (i w : Nat) (v : Word) : (s.setSdescWord i w v).cfgStatus = s.cfgStatus := rfl
@[simp] theorem setSdescWord_sdesc (i w : Nat) (v : Word) : (s.setSdescWord i w v).sdesc = cellsWrite 0 s.sdesc (sdescKey i w) v := rfl
@[simp] theorem setSdescWord_pool (i w : Nat) (v : Word) : (s.setSdescWord i w v).pool = s.pool := rfl
@[simp] theorem setSdescWord_writeIndex (i w : Nat) (v : Word) : (s.setSdescWord i w v).writeIndex = s.writeIndex := rfl
@[simp] theorem setSdescWord_pub (i w : Nat) (v : Word) : (s.setSdescWord i w v).pub = s.pub := rfl
@[simp] theorem setSdescWord_params (i w : Nat) (v : Word) : (s.setSdescWord i w v).params = s.params := rfl
@[simp] theorem setSdescWord_draws (i w : Nat) (v : Word) : (s.setSdescWord i w v).draws = s.draws := rfl
@[simp] theorem setSdescWord_turns (i w : Nat) (v : Word) : (s.setSdescWord i w v).turns = s.turns := rfl
@[simp] theorem setSdescWord_pick (i w : Nat) (v : Word) : (s.setSdescWord i w v).pick = s.pick := rfl
@[simp] theorem setSdescWord_producerIn (i w : Nat) (v : Word) : (s.setSdescWord i w v).producerIn = s.producerIn := rfl
@[simp] theorem setSdescWord_consumerIn (i w : Nat) (v : Word) : (s.setSdescWord i w v).consumerIn = s.consumerIn := rfl
@[simp] theorem setSdescWord_producerResp (i w : Nat) (v : Word) : (s.setSdescWord i w v).producerResp = s.producerResp := rfl
@[simp] theorem setSdescWord_consumerResp (i w : Nat) (v : Word) : (s.setSdescWord i w v).consumerResp = s.consumerResp := rfl

/-! ### Ops: a response -/

@[simp] theorem respond_window (a : Agent) (r : Response) : (respond a r s).window = s.window := by cases a <;> rfl
@[simp] theorem respond_mode (a : Agent) (r : Response) : (respond a r s).mode = s.mode := by cases a <;> rfl
@[simp] theorem respond_table (a : Agent) (r : Response) : (respond a r s).table = s.table := by cases a <;> rfl
@[simp] theorem respond_act (a : Agent) (r : Response) : (respond a r s).act = s.act := by cases a <;> rfl
@[simp] theorem respond_bitCount (a : Agent) (r : Response) : (respond a r s).bitCount = s.bitCount := by cases a <;> rfl
@[simp] theorem respond_subCount (a : Agent) (r : Response) : (respond a r s).subCount = s.subCount := by cases a <;> rfl
@[simp] theorem respond_base (a : Agent) (r : Response) : (respond a r s).base = s.base := by cases a <;> rfl
@[simp] theorem respond_uartPhase (a : Agent) (r : Response) : (respond a r s).uartPhase = s.uartPhase := by cases a <;> rfl
@[simp] theorem respond_half (a : Agent) (r : Response) : (respond a r s).half = s.half := by cases a <;> rfl
@[simp] theorem respond_rxTimeLatch (a : Agent) (r : Response) : (respond a r s).rxTimeLatch = s.rxTimeLatch := by cases a <;> rfl
@[simp] theorem respond_curParam (a : Agent) (r : Response) : (respond a r s).curParam = s.curParam := by cases a <;> rfl
@[simp] theorem respond_overrunCount (a : Agent) (r : Response) : (respond a r s).overrunCount = s.overrunCount := by cases a <;> rfl
@[simp] theorem respond_framingErrCount (a : Agent) (r : Response) : (respond a r s).framingErrCount = s.framingErrCount := by cases a <;> rfl
@[simp] theorem respond_stage (a : Agent) (r : Response) : (respond a r s).stage = s.stage := by cases a <;> rfl
@[simp] theorem respond_fault (a : Agent) (r : Response) : (respond a r s).fault = s.fault := by cases a <;> rfl
@[simp] theorem respond_cfgStatus (a : Agent) (r : Response) : (respond a r s).cfgStatus = s.cfgStatus := by cases a <;> rfl
@[simp] theorem respond_sdesc (a : Agent) (r : Response) : (respond a r s).sdesc = s.sdesc := by cases a <;> rfl
@[simp] theorem respond_pool (a : Agent) (r : Response) : (respond a r s).pool = s.pool := by cases a <;> rfl
@[simp] theorem respond_writeIndex (a : Agent) (r : Response) : (respond a r s).writeIndex = s.writeIndex := by cases a <;> rfl
@[simp] theorem respond_pub (a : Agent) (r : Response) : (respond a r s).pub = s.pub := by cases a <;> rfl
@[simp] theorem respond_params (a : Agent) (r : Response) : (respond a r s).params = s.params := by cases a <;> rfl
@[simp] theorem respond_draws (a : Agent) (r : Response) : (respond a r s).draws = s.draws := by cases a <;> rfl
@[simp] theorem respond_turns (a : Agent) (r : Response) : (respond a r s).turns = s.turns := by cases a <;> rfl
@[simp] theorem respond_pick (a : Agent) (r : Response) : (respond a r s).pick = s.pick := by cases a <;> rfl
@[simp] theorem respond_producerIn (a : Agent) (r : Response) : (respond a r s).producerIn = s.producerIn := by cases a <;> rfl
@[simp] theorem respond_consumerIn (a : Agent) (r : Response) : (respond a r s).consumerIn = s.consumerIn := by cases a <;> rfl
@[simp] theorem respond_producerResp (a : Agent) (r : Response) : (respond a r s).producerResp = if a = .producer then some r else s.producerResp := by cases a <;> rfl
@[simp] theorem respond_consumerResp (a : Agent) (r : Response) : (respond a r s).consumerResp = if a = .consumer then some r else s.consumerResp := by cases a <;> rfl

/-! ### Flags: cfgStatus -/

@[simp] theorem setCfgStatus_window (r : CfgResult) (c : CfgCause) (e : Byte) : (setCfgStatus r c e s).window = s.window := rfl
@[simp] theorem setCfgStatus_mode (r : CfgResult) (c : CfgCause) (e : Byte) : (setCfgStatus r c e s).mode = s.mode := rfl
@[simp] theorem setCfgStatus_table (r : CfgResult) (c : CfgCause) (e : Byte) : (setCfgStatus r c e s).table = s.table := rfl
@[simp] theorem setCfgStatus_act (r : CfgResult) (c : CfgCause) (e : Byte) : (setCfgStatus r c e s).act = s.act := rfl
@[simp] theorem setCfgStatus_bitCount (r : CfgResult) (c : CfgCause) (e : Byte) : (setCfgStatus r c e s).bitCount = s.bitCount := rfl
@[simp] theorem setCfgStatus_subCount (r : CfgResult) (c : CfgCause) (e : Byte) : (setCfgStatus r c e s).subCount = s.subCount := rfl
@[simp] theorem setCfgStatus_base (r : CfgResult) (c : CfgCause) (e : Byte) : (setCfgStatus r c e s).base = s.base := rfl
@[simp] theorem setCfgStatus_uartPhase (r : CfgResult) (c : CfgCause) (e : Byte) : (setCfgStatus r c e s).uartPhase = s.uartPhase := rfl
@[simp] theorem setCfgStatus_half (r : CfgResult) (c : CfgCause) (e : Byte) : (setCfgStatus r c e s).half = s.half := rfl
@[simp] theorem setCfgStatus_rxTimeLatch (r : CfgResult) (c : CfgCause) (e : Byte) : (setCfgStatus r c e s).rxTimeLatch = s.rxTimeLatch := rfl
@[simp] theorem setCfgStatus_curParam (r : CfgResult) (c : CfgCause) (e : Byte) : (setCfgStatus r c e s).curParam = s.curParam := rfl
@[simp] theorem setCfgStatus_overrunCount (r : CfgResult) (c : CfgCause) (e : Byte) : (setCfgStatus r c e s).overrunCount = s.overrunCount := rfl
@[simp] theorem setCfgStatus_framingErrCount (r : CfgResult) (c : CfgCause) (e : Byte) : (setCfgStatus r c e s).framingErrCount = s.framingErrCount := rfl
@[simp] theorem setCfgStatus_stage (r : CfgResult) (c : CfgCause) (e : Byte) : (setCfgStatus r c e s).stage = s.stage := rfl
@[simp] theorem setCfgStatus_fault (r : CfgResult) (c : CfgCause) (e : Byte) : (setCfgStatus r c e s).fault = s.fault := rfl
@[simp] theorem setCfgStatus_cfgStatus (r : CfgResult) (c : CfgCause) (e : Byte) : (setCfgStatus r c e s).cfgStatus = ⟨r, c, e⟩ := rfl
@[simp] theorem setCfgStatus_sdesc (r : CfgResult) (c : CfgCause) (e : Byte) : (setCfgStatus r c e s).sdesc = s.sdesc := rfl
@[simp] theorem setCfgStatus_pool (r : CfgResult) (c : CfgCause) (e : Byte) : (setCfgStatus r c e s).pool = s.pool := rfl
@[simp] theorem setCfgStatus_writeIndex (r : CfgResult) (c : CfgCause) (e : Byte) : (setCfgStatus r c e s).writeIndex = s.writeIndex := rfl
@[simp] theorem setCfgStatus_pub (r : CfgResult) (c : CfgCause) (e : Byte) : (setCfgStatus r c e s).pub = s.pub := rfl
@[simp] theorem setCfgStatus_params (r : CfgResult) (c : CfgCause) (e : Byte) : (setCfgStatus r c e s).params = s.params := rfl
@[simp] theorem setCfgStatus_draws (r : CfgResult) (c : CfgCause) (e : Byte) : (setCfgStatus r c e s).draws = s.draws := rfl
@[simp] theorem setCfgStatus_turns (r : CfgResult) (c : CfgCause) (e : Byte) : (setCfgStatus r c e s).turns = s.turns := rfl
@[simp] theorem setCfgStatus_pick (r : CfgResult) (c : CfgCause) (e : Byte) : (setCfgStatus r c e s).pick = s.pick := rfl
@[simp] theorem setCfgStatus_producerIn (r : CfgResult) (c : CfgCause) (e : Byte) : (setCfgStatus r c e s).producerIn = s.producerIn := rfl
@[simp] theorem setCfgStatus_consumerIn (r : CfgResult) (c : CfgCause) (e : Byte) : (setCfgStatus r c e s).consumerIn = s.consumerIn := rfl
@[simp] theorem setCfgStatus_producerResp (r : CfgResult) (c : CfgCause) (e : Byte) : (setCfgStatus r c e s).producerResp = s.producerResp := rfl
@[simp] theorem setCfgStatus_consumerResp (r : CfgResult) (c : CfgCause) (e : Byte) : (setCfgStatus r c e s).consumerResp = s.consumerResp := rfl

/-! ### Flags: the framing counter -/

@[simp] theorem countFraming_window (v : Bool) : (countFraming v s).window = s.window := rfl
@[simp] theorem countFraming_mode (v : Bool) : (countFraming v s).mode = s.mode := rfl
@[simp] theorem countFraming_table (v : Bool) : (countFraming v s).table = s.table := rfl
@[simp] theorem countFraming_act (v : Bool) : (countFraming v s).act = s.act := rfl
@[simp] theorem countFraming_bitCount (v : Bool) : (countFraming v s).bitCount = s.bitCount := rfl
@[simp] theorem countFraming_subCount (v : Bool) : (countFraming v s).subCount = s.subCount := rfl
@[simp] theorem countFraming_base (v : Bool) : (countFraming v s).base = s.base := rfl
@[simp] theorem countFraming_uartPhase (v : Bool) : (countFraming v s).uartPhase = s.uartPhase := rfl
@[simp] theorem countFraming_half (v : Bool) : (countFraming v s).half = s.half := rfl
@[simp] theorem countFraming_rxTimeLatch (v : Bool) : (countFraming v s).rxTimeLatch = s.rxTimeLatch := rfl
@[simp] theorem countFraming_curParam (v : Bool) : (countFraming v s).curParam = s.curParam := rfl
@[simp] theorem countFraming_overrunCount (v : Bool) : (countFraming v s).overrunCount = s.overrunCount := rfl
@[simp] theorem countFraming_framingErrCount (v : Bool) : (countFraming v s).framingErrCount = if v then s.framingErrCount + 1 else s.framingErrCount := rfl
@[simp] theorem countFraming_stage (v : Bool) : (countFraming v s).stage = s.stage := rfl
@[simp] theorem countFraming_fault (v : Bool) : (countFraming v s).fault = s.fault := rfl
@[simp] theorem countFraming_cfgStatus (v : Bool) : (countFraming v s).cfgStatus = s.cfgStatus := rfl
@[simp] theorem countFraming_sdesc (v : Bool) : (countFraming v s).sdesc = s.sdesc := rfl
@[simp] theorem countFraming_pool (v : Bool) : (countFraming v s).pool = s.pool := rfl
@[simp] theorem countFraming_writeIndex (v : Bool) : (countFraming v s).writeIndex = s.writeIndex := rfl
@[simp] theorem countFraming_pub (v : Bool) : (countFraming v s).pub = s.pub := rfl
@[simp] theorem countFraming_params (v : Bool) : (countFraming v s).params = s.params := rfl
@[simp] theorem countFraming_draws (v : Bool) : (countFraming v s).draws = s.draws := rfl
@[simp] theorem countFraming_turns (v : Bool) : (countFraming v s).turns = s.turns := rfl
@[simp] theorem countFraming_pick (v : Bool) : (countFraming v s).pick = s.pick := rfl
@[simp] theorem countFraming_producerIn (v : Bool) : (countFraming v s).producerIn = s.producerIn := rfl
@[simp] theorem countFraming_consumerIn (v : Bool) : (countFraming v s).consumerIn = s.consumerIn := rfl
@[simp] theorem countFraming_producerResp (v : Bool) : (countFraming v s).producerResp = s.producerResp := rfl
@[simp] theorem countFraming_consumerResp (v : Bool) : (countFraming v s).consumerResp = s.consumerResp := rfl

/-! ### Flags: the overrun counter -/

@[simp] theorem countOverrun_window (v : Byte) : (countOverrun v s).window = s.window := rfl
@[simp] theorem countOverrun_mode (v : Byte) : (countOverrun v s).mode = s.mode := rfl
@[simp] theorem countOverrun_table (v : Byte) : (countOverrun v s).table = s.table := rfl
@[simp] theorem countOverrun_act (v : Byte) : (countOverrun v s).act = s.act := rfl
@[simp] theorem countOverrun_bitCount (v : Byte) : (countOverrun v s).bitCount = s.bitCount := rfl
@[simp] theorem countOverrun_subCount (v : Byte) : (countOverrun v s).subCount = s.subCount := rfl
@[simp] theorem countOverrun_base (v : Byte) : (countOverrun v s).base = s.base := rfl
@[simp] theorem countOverrun_uartPhase (v : Byte) : (countOverrun v s).uartPhase = s.uartPhase := rfl
@[simp] theorem countOverrun_half (v : Byte) : (countOverrun v s).half = s.half := rfl
@[simp] theorem countOverrun_rxTimeLatch (v : Byte) : (countOverrun v s).rxTimeLatch = s.rxTimeLatch := rfl
@[simp] theorem countOverrun_curParam (v : Byte) : (countOverrun v s).curParam = s.curParam := rfl
@[simp] theorem countOverrun_overrunCount (v : Byte) : (countOverrun v s).overrunCount = if v = 1 then s.overrunCount + 1 else s.overrunCount := rfl
@[simp] theorem countOverrun_framingErrCount (v : Byte) : (countOverrun v s).framingErrCount = s.framingErrCount := rfl
@[simp] theorem countOverrun_stage (v : Byte) : (countOverrun v s).stage = s.stage := rfl
@[simp] theorem countOverrun_fault (v : Byte) : (countOverrun v s).fault = s.fault := rfl
@[simp] theorem countOverrun_cfgStatus (v : Byte) : (countOverrun v s).cfgStatus = s.cfgStatus := rfl
@[simp] theorem countOverrun_sdesc (v : Byte) : (countOverrun v s).sdesc = s.sdesc := rfl
@[simp] theorem countOverrun_pool (v : Byte) : (countOverrun v s).pool = s.pool := rfl
@[simp] theorem countOverrun_writeIndex (v : Byte) : (countOverrun v s).writeIndex = s.writeIndex := rfl
@[simp] theorem countOverrun_pub (v : Byte) : (countOverrun v s).pub = s.pub := rfl
@[simp] theorem countOverrun_params (v : Byte) : (countOverrun v s).params = s.params := rfl
@[simp] theorem countOverrun_draws (v : Byte) : (countOverrun v s).draws = s.draws := rfl
@[simp] theorem countOverrun_turns (v : Byte) : (countOverrun v s).turns = s.turns := rfl
@[simp] theorem countOverrun_pick (v : Byte) : (countOverrun v s).pick = s.pick := rfl
@[simp] theorem countOverrun_producerIn (v : Byte) : (countOverrun v s).producerIn = s.producerIn := rfl
@[simp] theorem countOverrun_consumerIn (v : Byte) : (countOverrun v s).consumerIn = s.consumerIn := rfl
@[simp] theorem countOverrun_producerResp (v : Byte) : (countOverrun v s).producerResp = s.producerResp := rfl
@[simp] theorem countOverrun_consumerResp (v : Byte) : (countOverrun v s).consumerResp = s.consumerResp := rfl

/-! ### Correlator: the window shift -/

@[simp] theorem shiftWindow_window (b : Bool) : (shiftWindow b s).window = (s.window.setWidth 127).concat b := rfl
@[simp] theorem shiftWindow_mode (b : Bool) : (shiftWindow b s).mode = s.mode := rfl
@[simp] theorem shiftWindow_table (b : Bool) : (shiftWindow b s).table = s.table := rfl
@[simp] theorem shiftWindow_act (b : Bool) : (shiftWindow b s).act = s.act := rfl
@[simp] theorem shiftWindow_bitCount (b : Bool) : (shiftWindow b s).bitCount = s.bitCount := rfl
@[simp] theorem shiftWindow_subCount (b : Bool) : (shiftWindow b s).subCount = s.subCount := rfl
@[simp] theorem shiftWindow_base (b : Bool) : (shiftWindow b s).base = s.base := rfl
@[simp] theorem shiftWindow_uartPhase (b : Bool) : (shiftWindow b s).uartPhase = s.uartPhase := rfl
@[simp] theorem shiftWindow_half (b : Bool) : (shiftWindow b s).half = s.half := rfl
@[simp] theorem shiftWindow_rxTimeLatch (b : Bool) : (shiftWindow b s).rxTimeLatch = s.rxTimeLatch := rfl
@[simp] theorem shiftWindow_curParam (b : Bool) : (shiftWindow b s).curParam = s.curParam := rfl
@[simp] theorem shiftWindow_overrunCount (b : Bool) : (shiftWindow b s).overrunCount = s.overrunCount := rfl
@[simp] theorem shiftWindow_framingErrCount (b : Bool) : (shiftWindow b s).framingErrCount = s.framingErrCount := rfl
@[simp] theorem shiftWindow_stage (b : Bool) : (shiftWindow b s).stage = s.stage := rfl
@[simp] theorem shiftWindow_fault (b : Bool) : (shiftWindow b s).fault = s.fault := rfl
@[simp] theorem shiftWindow_cfgStatus (b : Bool) : (shiftWindow b s).cfgStatus = s.cfgStatus := rfl
@[simp] theorem shiftWindow_sdesc (b : Bool) : (shiftWindow b s).sdesc = s.sdesc := rfl
@[simp] theorem shiftWindow_pool (b : Bool) : (shiftWindow b s).pool = s.pool := rfl
@[simp] theorem shiftWindow_writeIndex (b : Bool) : (shiftWindow b s).writeIndex = s.writeIndex := rfl
@[simp] theorem shiftWindow_pub (b : Bool) : (shiftWindow b s).pub = s.pub := rfl
@[simp] theorem shiftWindow_params (b : Bool) : (shiftWindow b s).params = s.params := rfl
@[simp] theorem shiftWindow_draws (b : Bool) : (shiftWindow b s).draws = s.draws := rfl
@[simp] theorem shiftWindow_turns (b : Bool) : (shiftWindow b s).turns = s.turns := rfl
@[simp] theorem shiftWindow_pick (b : Bool) : (shiftWindow b s).pick = s.pick := rfl
@[simp] theorem shiftWindow_producerIn (b : Bool) : (shiftWindow b s).producerIn = s.producerIn := rfl
@[simp] theorem shiftWindow_consumerIn (b : Bool) : (shiftWindow b s).consumerIn = s.consumerIn := rfl
@[simp] theorem shiftWindow_producerResp (b : Bool) : (shiftWindow b s).producerResp = s.producerResp := rfl
@[simp] theorem shiftWindow_consumerResp (b : Bool) : (shiftWindow b s).consumerResp = s.consumerResp := rfl

/-! ### Collector: the bit counter -/

@[simp] theorem countBit_window : (countBit s).window = s.window := rfl
@[simp] theorem countBit_mode : (countBit s).mode = s.mode := rfl
@[simp] theorem countBit_table : (countBit s).table = s.table := rfl
@[simp] theorem countBit_act : (countBit s).act = s.act := rfl
@[simp] theorem countBit_bitCount : (countBit s).bitCount = s.bitCount + 1 := rfl
@[simp] theorem countBit_subCount : (countBit s).subCount = s.subCount := rfl
@[simp] theorem countBit_base : (countBit s).base = s.base := rfl
@[simp] theorem countBit_uartPhase : (countBit s).uartPhase = s.uartPhase := rfl
@[simp] theorem countBit_half : (countBit s).half = s.half := rfl
@[simp] theorem countBit_rxTimeLatch : (countBit s).rxTimeLatch = s.rxTimeLatch := rfl
@[simp] theorem countBit_curParam : (countBit s).curParam = s.curParam := rfl
@[simp] theorem countBit_overrunCount : (countBit s).overrunCount = s.overrunCount := rfl
@[simp] theorem countBit_framingErrCount : (countBit s).framingErrCount = s.framingErrCount := rfl
@[simp] theorem countBit_stage : (countBit s).stage = s.stage := rfl
@[simp] theorem countBit_fault : (countBit s).fault = s.fault := rfl
@[simp] theorem countBit_cfgStatus : (countBit s).cfgStatus = s.cfgStatus := rfl
@[simp] theorem countBit_sdesc : (countBit s).sdesc = s.sdesc := rfl
@[simp] theorem countBit_pool : (countBit s).pool = s.pool := rfl
@[simp] theorem countBit_writeIndex : (countBit s).writeIndex = s.writeIndex := rfl
@[simp] theorem countBit_pub : (countBit s).pub = s.pub := rfl
@[simp] theorem countBit_params : (countBit s).params = s.params := rfl
@[simp] theorem countBit_draws : (countBit s).draws = s.draws := rfl
@[simp] theorem countBit_turns : (countBit s).turns = s.turns := rfl
@[simp] theorem countBit_pick : (countBit s).pick = s.pick := rfl
@[simp] theorem countBit_producerIn : (countBit s).producerIn = s.producerIn := rfl
@[simp] theorem countBit_consumerIn : (countBit s).consumerIn = s.consumerIn := rfl
@[simp] theorem countBit_producerResp : (countBit s).producerResp = s.producerResp := rfl
@[simp] theorem countBit_consumerResp : (countBit s).consumerResp = s.consumerResp := rfl

/-! ### Collector: placing a payload bit -/

@[simp] theorem putBit_window (q : PatternSpec) (d : Bool) : (putBit q d s).window = s.window := rfl
@[simp] theorem putBit_mode (q : PatternSpec) (d : Bool) : (putBit q d s).mode = s.mode := rfl
@[simp] theorem putBit_table (q : PatternSpec) (d : Bool) : (putBit q d s).table = s.table := rfl
@[simp] theorem putBit_act (q : PatternSpec) (d : Bool) : (putBit q d s).act = s.act := rfl
@[simp] theorem putBit_bitCount (q : PatternSpec) (d : Bool) : (putBit q d s).bitCount = s.bitCount := rfl
@[simp] theorem putBit_subCount (q : PatternSpec) (d : Bool) : (putBit q d s).subCount = if endsSubBlock q s then 0 else s.subCount + 1 := rfl
@[simp] theorem putBit_base (q : PatternSpec) (d : Bool) : (putBit q d s).base = if endsSubBlock q s then s.base + q.subBlockBytes else s.base := rfl
@[simp] theorem putBit_uartPhase (q : PatternSpec) (d : Bool) : (putBit q d s).uartPhase = s.uartPhase := rfl
@[simp] theorem putBit_half (q : PatternSpec) (d : Bool) : (putBit q d s).half = s.half := rfl
@[simp] theorem putBit_rxTimeLatch (q : PatternSpec) (d : Bool) : (putBit q d s).rxTimeLatch = s.rxTimeLatch := rfl
@[simp] theorem putBit_curParam (q : PatternSpec) (d : Bool) : (putBit q d s).curParam = s.curParam := rfl
@[simp] theorem putBit_overrunCount (q : PatternSpec) (d : Bool) : (putBit q d s).overrunCount = s.overrunCount := rfl
@[simp] theorem putBit_framingErrCount (q : PatternSpec) (d : Bool) : (putBit q d s).framingErrCount = s.framingErrCount := rfl
@[simp] theorem putBit_stage (q : PatternSpec) (d : Bool) : (putBit q d s).stage = placeByte s.stage (byteAddress s) (decide (s.subCount.toNat % 8 = 0))
      (bitByte (d ^^ q.inverted) (bitPosition s.mode s.subCount.toNat)) := rfl
@[simp] theorem putBit_fault (q : PatternSpec) (d : Bool) : (putBit q d s).fault = overflowFlag s.fault (byteAddress s) := rfl
@[simp] theorem putBit_cfgStatus (q : PatternSpec) (d : Bool) : (putBit q d s).cfgStatus = s.cfgStatus := rfl
@[simp] theorem putBit_sdesc (q : PatternSpec) (d : Bool) : (putBit q d s).sdesc = s.sdesc := rfl
@[simp] theorem putBit_pool (q : PatternSpec) (d : Bool) : (putBit q d s).pool = s.pool := rfl
@[simp] theorem putBit_writeIndex (q : PatternSpec) (d : Bool) : (putBit q d s).writeIndex = s.writeIndex := rfl
@[simp] theorem putBit_pub (q : PatternSpec) (d : Bool) : (putBit q d s).pub = s.pub := rfl
@[simp] theorem putBit_params (q : PatternSpec) (d : Bool) : (putBit q d s).params = s.params := rfl
@[simp] theorem putBit_draws (q : PatternSpec) (d : Bool) : (putBit q d s).draws = s.draws := rfl
@[simp] theorem putBit_turns (q : PatternSpec) (d : Bool) : (putBit q d s).turns = s.turns := rfl
@[simp] theorem putBit_pick (q : PatternSpec) (d : Bool) : (putBit q d s).pick = s.pick := rfl
@[simp] theorem putBit_producerIn (q : PatternSpec) (d : Bool) : (putBit q d s).producerIn = s.producerIn := rfl
@[simp] theorem putBit_consumerIn (q : PatternSpec) (d : Bool) : (putBit q d s).consumerIn = s.consumerIn := rfl
@[simp] theorem putBit_producerResp (q : PatternSpec) (d : Bool) : (putBit q d s).producerResp = s.producerResp := rfl
@[simp] theorem putBit_consumerResp (q : PatternSpec) (d : Bool) : (putBit q d s).consumerResp = s.consumerResp := rfl

/-! ### Collector: the end of a frame -/

@[simp] theorem completeFrame_window (q : PatternSpec) : (completeFrame q s).window = s.window := rfl
@[simp] theorem completeFrame_mode (q : PatternSpec) : (completeFrame q s).mode = .hunt := rfl
@[simp] theorem completeFrame_table (q : PatternSpec) : (completeFrame q s).table = s.table := rfl
@[simp] theorem completeFrame_act (q : PatternSpec) : (completeFrame q s).act = none := rfl
@[simp] theorem completeFrame_bitCount (q : PatternSpec) : (completeFrame q s).bitCount = 0 := rfl
@[simp] theorem completeFrame_subCount (q : PatternSpec) : (completeFrame q s).subCount = 0 := rfl
@[simp] theorem completeFrame_base (q : PatternSpec) : (completeFrame q s).base = 0 := rfl
@[simp] theorem completeFrame_uartPhase (q : PatternSpec) : (completeFrame q s).uartPhase = 0 := rfl
@[simp] theorem completeFrame_half (q : PatternSpec) : (completeFrame q s).half = none := rfl
@[simp] theorem completeFrame_rxTimeLatch (q : PatternSpec) : (completeFrame q s).rxTimeLatch = s.rxTimeLatch := rfl
@[simp] theorem completeFrame_curParam (q : PatternSpec) : (completeFrame q s).curParam = 0 := rfl
@[simp] theorem completeFrame_overrunCount (q : PatternSpec) : (completeFrame q s).overrunCount = s.overrunCount := rfl
@[simp] theorem completeFrame_framingErrCount (q : PatternSpec) : (completeFrame q s).framingErrCount = s.framingErrCount := rfl
@[simp] theorem completeFrame_stage (q : PatternSpec) :
    (completeFrame q s).stage = (hook q.postProcess q s.stage s.curParam s.rxTimeLatch).1 := rfl
@[simp] theorem completeFrame_fault (q : PatternSpec) : (completeFrame q s).fault = s.fault := rfl
@[simp] theorem completeFrame_cfgStatus (q : PatternSpec) : (completeFrame q s).cfgStatus = s.cfgStatus := rfl
@[simp] theorem completeFrame_sdesc (q : PatternSpec) : (completeFrame q s).sdesc = s.sdesc := rfl
@[simp] theorem completeFrame_pool (q : PatternSpec) : (completeFrame q s).pool = s.pool := rfl
@[simp] theorem completeFrame_writeIndex (q : PatternSpec) : (completeFrame q s).writeIndex = s.writeIndex + 1 := rfl
@[simp] theorem completeFrame_pub (q : PatternSpec) :
    (completeFrame q s).pub = some (publishRecord (targetSlot s.writeIndex) q.id (hook q.postProcess q s.stage s.curParam s.rxTimeLatch).2
      s.rxTimeLatch (hook q.postProcess q s.stage s.curParam s.rxTimeLatch).1) := rfl
@[simp] theorem completeFrame_params (q : PatternSpec) : (completeFrame q s).params = s.params := rfl
@[simp] theorem completeFrame_draws (q : PatternSpec) : (completeFrame q s).draws = s.draws := rfl
@[simp] theorem completeFrame_turns (q : PatternSpec) : (completeFrame q s).turns = s.turns := rfl
@[simp] theorem completeFrame_pick (q : PatternSpec) : (completeFrame q s).pick = s.pick := rfl
@[simp] theorem completeFrame_producerIn (q : PatternSpec) : (completeFrame q s).producerIn = s.producerIn := rfl
@[simp] theorem completeFrame_consumerIn (q : PatternSpec) : (completeFrame q s).consumerIn = s.consumerIn := rfl
@[simp] theorem completeFrame_producerResp (q : PatternSpec) : (completeFrame q s).producerResp = s.producerResp := rfl
@[simp] theorem completeFrame_consumerResp (q : PatternSpec) : (completeFrame q s).consumerResp = s.consumerResp := rfl

/-! ### Correlator: the match actions -/

@[simp] theorem startFrame_window (i : Nat) (q : PatternSpec) (t : Word) : (startFrame i q t s).window = s.window := rfl
@[simp] theorem startFrame_mode (i : Nat) (q : PatternSpec) (t : Word) : (startFrame i q t s).mode = q.dataState := rfl
@[simp] theorem startFrame_table (i : Nat) (q : PatternSpec) (t : Word) : (startFrame i q t s).table = s.table := rfl
@[simp] theorem startFrame_act (i : Nat) (q : PatternSpec) (t : Word) : (startFrame i q t s).act = some i := rfl
@[simp] theorem startFrame_bitCount (i : Nat) (q : PatternSpec) (t : Word) : (startFrame i q t s).bitCount = 0 := rfl
@[simp] theorem startFrame_subCount (i : Nat) (q : PatternSpec) (t : Word) : (startFrame i q t s).subCount = 0 := rfl
@[simp] theorem startFrame_base (i : Nat) (q : PatternSpec) (t : Word) : (startFrame i q t s).base = q.startOffset := rfl
@[simp] theorem startFrame_uartPhase (i : Nat) (q : PatternSpec) (t : Word) : (startFrame i q t s).uartPhase = 0 := rfl
@[simp] theorem startFrame_half (i : Nat) (q : PatternSpec) (t : Word) : (startFrame i q t s).half = none := rfl
@[simp] theorem startFrame_rxTimeLatch (i : Nat) (q : PatternSpec) (t : Word) : (startFrame i q t s).rxTimeLatch = t := rfl
@[simp] theorem startFrame_curParam (i : Nat) (q : PatternSpec) (t : Word) : (startFrame i q t s).curParam = 0 := rfl
@[simp] theorem startFrame_overrunCount (i : Nat) (q : PatternSpec) (t : Word) :
    (startFrame i q t s).overrunCount = s.overrunCount := rfl
@[simp] theorem startFrame_framingErrCount (i : Nat) (q : PatternSpec) (t : Word) :
    (startFrame i q t s).framingErrCount = s.framingErrCount := rfl
@[simp] theorem startFrame_stage (i : Nat) (q : PatternSpec) (t : Word) : (startFrame i q t s).stage = drawBuffer s.draws := rfl
@[simp] theorem startFrame_fault (i : Nat) (q : PatternSpec) (t : Word) : (startFrame i q t s).fault = s.fault := rfl
@[simp] theorem startFrame_cfgStatus (i : Nat) (q : PatternSpec) (t : Word) :
    (startFrame i q t s).cfgStatus = s.cfgStatus := rfl
@[simp] theorem startFrame_sdesc (i : Nat) (q : PatternSpec) (t : Word) : (startFrame i q t s).sdesc = s.sdesc := rfl
@[simp] theorem startFrame_pool (i : Nat) (q : PatternSpec) (t : Word) : (startFrame i q t s).pool = s.pool := rfl
@[simp] theorem startFrame_writeIndex (i : Nat) (q : PatternSpec) (t : Word) :
    (startFrame i q t s).writeIndex = s.writeIndex := rfl
@[simp] theorem startFrame_pub (i : Nat) (q : PatternSpec) (t : Word) : (startFrame i q t s).pub = s.pub := rfl
@[simp] theorem startFrame_params (i : Nat) (q : PatternSpec) (t : Word) : (startFrame i q t s).params = s.params := rfl
@[simp] theorem startFrame_draws (i : Nat) (q : PatternSpec) (t : Word) : (startFrame i q t s).draws = s.draws + bufBytes := rfl
@[simp] theorem startFrame_turns (i : Nat) (q : PatternSpec) (t : Word) : (startFrame i q t s).turns = s.turns := rfl
@[simp] theorem startFrame_pick (i : Nat) (q : PatternSpec) (t : Word) : (startFrame i q t s).pick = s.pick := rfl
@[simp] theorem startFrame_producerIn (i : Nat) (q : PatternSpec) (t : Word) :
    (startFrame i q t s).producerIn = s.producerIn := rfl
@[simp] theorem startFrame_consumerIn (i : Nat) (q : PatternSpec) (t : Word) :
    (startFrame i q t s).consumerIn = s.consumerIn := rfl
@[simp] theorem startFrame_producerResp (i : Nat) (q : PatternSpec) (t : Word) :
    (startFrame i q t s).producerResp = s.producerResp := rfl
@[simp] theorem startFrame_consumerResp (i : Nat) (q : PatternSpec) (t : Word) :
    (startFrame i q t s).consumerResp = s.consumerResp := rfl

/-! ### Commands: an accepted CONFIGURE -/

@[simp] theorem acceptConfig_window (specs : List PatternSpec) : (acceptConfig specs s).window = s.window := rfl
@[simp] theorem acceptConfig_mode (specs : List PatternSpec) : (acceptConfig specs s).mode = .hunt := rfl
@[simp] theorem acceptConfig_table (specs : List PatternSpec) : (acceptConfig specs s).table = specs := rfl
@[simp] theorem acceptConfig_act (specs : List PatternSpec) : (acceptConfig specs s).act = none := rfl
@[simp] theorem acceptConfig_bitCount (specs : List PatternSpec) : (acceptConfig specs s).bitCount = 0 := rfl
@[simp] theorem acceptConfig_subCount (specs : List PatternSpec) : (acceptConfig specs s).subCount = 0 := rfl
@[simp] theorem acceptConfig_base (specs : List PatternSpec) : (acceptConfig specs s).base = 0 := rfl
@[simp] theorem acceptConfig_uartPhase (specs : List PatternSpec) : (acceptConfig specs s).uartPhase = 0 := rfl
@[simp] theorem acceptConfig_half (specs : List PatternSpec) : (acceptConfig specs s).half = none := rfl
@[simp] theorem acceptConfig_rxTimeLatch (specs : List PatternSpec) : (acceptConfig specs s).rxTimeLatch = s.rxTimeLatch := rfl
@[simp] theorem acceptConfig_curParam (specs : List PatternSpec) : (acceptConfig specs s).curParam = 0 := rfl
@[simp] theorem acceptConfig_overrunCount (specs : List PatternSpec) :
    (acceptConfig specs s).overrunCount = s.overrunCount := rfl
@[simp] theorem acceptConfig_framingErrCount (specs : List PatternSpec) :
    (acceptConfig specs s).framingErrCount = s.framingErrCount := rfl
@[simp] theorem acceptConfig_stage (specs : List PatternSpec) : (acceptConfig specs s).stage = s.stage := rfl
@[simp] theorem acceptConfig_fault (specs : List PatternSpec) : (acceptConfig specs s).fault = s.fault := rfl
@[simp] theorem acceptConfig_cfgStatus (specs : List PatternSpec) :
    (acceptConfig specs s).cfgStatus = ⟨.accepted, .none, 0⟩ := rfl
@[simp] theorem acceptConfig_sdesc (specs : List PatternSpec) : (acceptConfig specs s).sdesc = s.sdesc := rfl
@[simp] theorem acceptConfig_pool (specs : List PatternSpec) : (acceptConfig specs s).pool = s.pool := rfl
@[simp] theorem acceptConfig_writeIndex (specs : List PatternSpec) : (acceptConfig specs s).writeIndex = s.writeIndex := rfl
@[simp] theorem acceptConfig_pub (specs : List PatternSpec) : (acceptConfig specs s).pub = s.pub := rfl
@[simp] theorem acceptConfig_params (specs : List PatternSpec) : (acceptConfig specs s).params = s.params := rfl
@[simp] theorem acceptConfig_draws (specs : List PatternSpec) : (acceptConfig specs s).draws = s.draws := rfl
@[simp] theorem acceptConfig_turns (specs : List PatternSpec) : (acceptConfig specs s).turns = s.turns := rfl
@[simp] theorem acceptConfig_pick (specs : List PatternSpec) : (acceptConfig specs s).pick = s.pick := rfl
@[simp] theorem acceptConfig_producerIn (specs : List PatternSpec) : (acceptConfig specs s).producerIn = s.producerIn := rfl
@[simp] theorem acceptConfig_consumerIn (specs : List PatternSpec) : (acceptConfig specs s).consumerIn = s.consumerIn := rfl
@[simp] theorem acceptConfig_producerResp (specs : List PatternSpec) :
    (acceptConfig specs s).producerResp = s.producerResp := rfl
@[simp] theorem acceptConfig_consumerResp (specs : List PatternSpec) :
    (acceptConfig specs s).consumerResp = s.consumerResp := rfl

/-! ### Ops: reset -/

@[simp] theorem machineReset_window : (machineReset s).window = 0 := rfl
@[simp] theorem machineReset_mode : (machineReset s).mode = .hunt := rfl
@[simp] theorem machineReset_table : (machineReset s).table = [] := rfl
@[simp] theorem machineReset_act : (machineReset s).act = none := rfl
@[simp] theorem machineReset_bitCount : (machineReset s).bitCount = 0 := rfl
@[simp] theorem machineReset_subCount : (machineReset s).subCount = 0 := rfl
@[simp] theorem machineReset_base : (machineReset s).base = 0 := rfl
@[simp] theorem machineReset_uartPhase : (machineReset s).uartPhase = 0 := rfl
@[simp] theorem machineReset_half : (machineReset s).half = none := rfl
@[simp] theorem machineReset_rxTimeLatch : (machineReset s).rxTimeLatch = 0 := rfl
@[simp] theorem machineReset_curParam : (machineReset s).curParam = 0 := rfl
@[simp] theorem machineReset_overrunCount : (machineReset s).overrunCount = 0 := rfl
@[simp] theorem machineReset_framingErrCount : (machineReset s).framingErrCount = 0 := rfl
@[simp] theorem machineReset_stage : (machineReset s).stage = drawBuffer s.draws := rfl
@[simp] theorem machineReset_fault : (machineReset s).fault = false := rfl
@[simp] theorem machineReset_cfgStatus : (machineReset s).cfgStatus = ⟨.none, .none, 0⟩ := rfl
@[simp] theorem machineReset_sdesc : (machineReset s).sdesc = [] := rfl
@[simp] theorem machineReset_pool : (machineReset s).pool = clearAllValid s.pool := rfl
@[simp] theorem machineReset_writeIndex : (machineReset s).writeIndex = 0 := rfl
@[simp] theorem machineReset_pub : (machineReset s).pub = s.pub := rfl
@[simp] theorem machineReset_params : (machineReset s).params = s.params := rfl
@[simp] theorem machineReset_draws : (machineReset s).draws = s.draws + bufBytes := rfl
@[simp] theorem machineReset_turns : (machineReset s).turns = s.turns := rfl
@[simp] theorem machineReset_pick : (machineReset s).pick = s.pick := rfl
@[simp] theorem machineReset_producerIn : (machineReset s).producerIn = s.producerIn := rfl
@[simp] theorem machineReset_consumerIn : (machineReset s).consumerIn = s.consumerIn := rfl
@[simp] theorem machineReset_producerResp : (machineReset s).producerResp = s.producerResp := rfl
@[simp] theorem machineReset_consumerResp : (machineReset s).consumerResp = s.consumerResp := rfl

end Sys2Proof.Machine
end

