-- ==== Sys2Proof/Laws/Publish.lean ====
section
/-! SUPPORT. What a publish event, the hold and an agent's turn can do, said once for each. -/

namespace Sys2Proof.Machine

/-! ### The set W -/

theorem mem_allFieldWrites (f : FieldWrite) : f ∈ allFieldWrites := by
  cases f <;> simp [allFieldWrites]

theorem allFieldWrites_nodup : allFieldWrites.Nodup := by
  unfold allFieldWrites
  rw [List.nodup_append]
  refine ⟨(List.nodup_finRange bufBytes).map fun a b h => FieldWrite.data.inj h, by decide, ?_⟩
  intro a ha b hb
  obtain ⟨j, -, rfl⟩ := List.mem_map.1 ha
  simp only [List.mem_cons, List.not_mem_nil, or_false] at hb
  rcases hb with rfl | rfl | rfl <;> simp

theorem allFieldWrites_complete : CompleteW allFieldWrites := ⟨allFieldWrites_nodup, mem_allFieldWrites⟩

/-! ### Field writes -/

/-- A field write stores exactly its bytes (R242, R96). -/
theorem performFieldWrite_readByte (p : Publish) (f : FieldWrite) (m : Memory) (a : Nat) :
    (performFieldWrite p f m).readByte a = (p.storedByte f a).getD (m.readByte a) := by
  cases f with
  | data j =>
    simp only [performFieldWrite, Memory.readByte_writeLE, Publish.storedByte]
    by_cases h : a = dataAddr p.slot j
    · subst h
      simp
    · rw [if_neg (by omega), if_neg h]
      rfl
  | opcode =>
    simp only [performFieldWrite, Memory.readByte_writeLE, Publish.storedByte]
    by_cases h : a = opcodeAddr p.slot
    · subst h
      simp
    · rw [if_neg (by omega), if_neg h]
      rfl
  | param =>
    simp only [performFieldWrite, Memory.readByte_writeLE, Publish.storedByte]
    by_cases h0 : a = paramAddr p.slot
    · subst h0
      simp
      ext i hi
      simp
    · by_cases h1 : a = paramAddr p.slot + 1
      · subst h1
        simp
        ext i hi
        simp
        omega
      · rw [if_neg (by omega), if_neg h0, if_neg h1]
        rfl
  | rxTime =>
    simp only [performFieldWrite, Memory.readByte_writeLE, Publish.storedByte]
    by_cases h0 : a = rxTimeAddr p.slot
    · subst h0
      simp
      ext i hi
      simp
    · by_cases h1 : a = rxTimeAddr p.slot + 1
      · subst h1
        simp
        ext i hi
        simp
      · by_cases h2 : a = rxTimeAddr p.slot + 2
        · subst h2
          simp
          ext i hi
          simp
        · by_cases h3 : a = rxTimeAddr p.slot + 3
          · subst h3
            simp
            ext i hi
            simp
          · rw [if_neg (by omega), if_neg h0, if_neg h1, if_neg h2, if_neg h3]
            rfl

theorem performFieldWrite_wf (p : Publish) (f : FieldWrite) (m : Memory) (h : m.wf = true) :
    (performFieldWrite p f m).wf = true := by
  cases f <;> exact Memory.writeLE_wf _ _ _ _ h

/-- A field write lists nothing but old entries and bytes of its slot's `data`, `opcode`, `param` and `rxTime`. -/
theorem mem_performFieldWrite (p : Publish) (f : FieldWrite) (m : Memory) (c : Host.Cell)
    (h : c ∈ performFieldWrite p f m) :
    c ∈ m ∨ (slotBase p.slot ≤ c.1 ∧ c.1 < slotBase p.slot + 0x408 ∧ c.1 ≠ validAddr p.slot) := by
  cases f with
  | data j =>
    rcases Memory.mem_writeLE _ _ _ _ _ h with h | ⟨h1, h2, -⟩
    · exact .inl h
    · have := j.isLt
      simp only [dataAddr, bufBytes] at h1 h2 this
      exact .inr ⟨by omega, by omega, by simp only [validAddr]; omega⟩
  | opcode =>
    rcases Memory.mem_writeLE _ _ _ _ _ h with h | ⟨h1, h2, -⟩
    · exact .inl h
    · simp only [opcodeAddr] at h1 h2
      exact .inr ⟨by omega, by omega, by simp only [validAddr]; omega⟩
  | param =>
    rcases Memory.mem_writeLE _ _ _ _ _ h with h | ⟨h1, h2, -⟩
    · exact .inl h
    · simp only [paramAddr] at h1 h2
      exact .inr ⟨by omega, by omega, by simp only [validAddr]; omega⟩
  | rxTime =>
    rcases Memory.mem_writeLE _ _ _ _ _ h with h | ⟨h1, h2, -⟩
    · exact .inl h
    · simp only [rxTimeAddr] at h1 h2
      exact .inr ⟨by omega, by omega, by simp only [validAddr]; omega⟩

/-! ### Publish events -/

/-- The first event: the overrun check (R241). -/
theorem publishEvent_check (k : Nat) (p : Publish) (s : State) (h : p.checked = false) :
    publishEvent k p s =
      countOverrun (s.pool.readByte (validAddr p.slot)) { s with pub := some { p with checked := true } } := by
  simp [publishEvent, h]

/-- The last event: `valid <- 1` (R242). -/
theorem publishEvent_last (k : Nat) (p : Publish) (s : State) (h : p.checked = true) (hp : p.pending = []) :
    publishEvent k p s = { s with pool := s.pool.writeByte (validAddr p.slot) 1, pub := none } := by
  simp [publishEvent, h, hp, Memory.writeLE]

/-- An event between: one element of W, the one the choice names, is performed and removed (R242). -/
theorem publishEvent_field (k : Nat) (p : Publish) (s : State) (h : p.checked = true) (hp : p.pending ≠ []) :
    ∃ (i : Nat) (hi : i < p.pending.length), i = k % p.pending.length ∧
      publishEvent k p s =
        { s with
          pool := performFieldWrite p p.pending[i] s.pool
          pub := some { p with pending := p.pending.eraseIdx i } } := by
  have hl : 0 < p.pending.length := List.length_pos_iff.2 hp
  refine ⟨k % p.pending.length, Nat.mod_lt _ hl, rfl, ?_⟩
  obtain ⟨slot, opcode, param, rxTime, data, checked, pending⟩ := p
  cases pending with
  | nil => exact absurd rfl hp
  | cons f fs => simp only at h; subst h; rfl

/-- Everything a publish event can do: it changes `pool`, `pub` and `overrunCount`. -/
theorem publishEvent_frame (k : Nat) (p : Publish) (s : State) :
    publishEvent k p s =
      { s with
        pool := (publishEvent k p s).pool
        pub := (publishEvent k p s).pub
        overrunCount := (publishEvent k p s).overrunCount } := by
  cases h : p.checked with
  | false => rw [publishEvent_check k p s h]; rfl
  | true =>
    by_cases hp : p.pending = []
    · rw [publishEvent_last k p s h hp]
    · obtain ⟨i, hi, -, he⟩ := publishEvent_field k p s h hp
      rw [he]

/-! ### The hold -/

theorem holdUntilPublished_none (s : State) (run : State → Result) (h : s.pub = none) :
    holdUntilPublished s run = run s := by
  simp [holdUntilPublished, h]

theorem holdUntilPublished_some (s : State) (run : State → Result) (p : Publish) (h : s.pub = some p) :
    holdUntilPublished s run = .next (publishEvent s.pick p s) := by
  simp [holdUntilPublished, h]

/-- A producer transaction while a publish is pending is held: the producer's step is the publish event (R161). -/
theorem exec_held (i : Instr) (s : State) (p : Publish) (h : s.pub = some p) (hi : i.agent = .producer) :
    exec i s = .next (publishEvent s.pick p s) := by
  cases i <;> first
    | (simp [Instr.agent] at hi; done)
    | simp only [exec, execFeed, execRegWrite, execRegRead, execCmdNop, execCmdOpen, execCmdConfigure, execCmdIllegal3,
        execCmdIllegal4To7, execCmdIllegal8ToF, runCommand, holdUntilPublished_some s _ p h]

/-! ### Turns -/

theorem step_idle (s : State) (h : s.turns = []) : step s = .next s := by
  simp [step, takeTurn, h]

/-- A producer turn while a publish is pending. -/
theorem step_publish (s : State) (k : Nat) (rest : List Turn) (p : Publish) (ht : s.turns = .producer k :: rest)
    (h : s.pub = some p) : step s = .next (publishEvent k p { s with turns := rest, pick := k }) := by
  simp [step, takeTurn, ht, producerStep, h]

/-- A producer turn that takes a word. -/
theorem step_producer (s : State) (k : Nat) (rest : List Turn) (w : TransWord) (ws : List TransWord)
    (ht : s.turns = .producer k :: rest) (h : s.pub = none) (hw : s.producerIn = w :: ws) :
    step s = runWord .producer w { s with turns := rest, pick := k, producerIn := ws } := by
  simp [step, takeTurn, ht, producerStep, h, hw]

/-- A producer turn with nothing to do. -/
theorem step_producer_idle (s : State) (k : Nat) (rest : List Turn) (ht : s.turns = .producer k :: rest)
    (h : s.pub = none) (hw : s.producerIn = []) : step s = .next { s with turns := rest, pick := k } := by
  simp [step, takeTurn, ht, producerStep, h, hw]

/-- A consumer turn that takes a word. -/
theorem step_consumer (s : State) (rest : List Turn) (w : TransWord) (ws : List TransWord)
    (ht : s.turns = .consumer :: rest) (hw : s.consumerIn = w :: ws) :
    step s = runWord .consumer w { s with turns := rest, consumerIn := ws } := by
  simp [step, takeTurn, ht, consumerStep, hw]

/-- A consumer turn with nothing to do. -/
theorem step_consumer_idle (s : State) (rest : List Turn) (ht : s.turns = .consumer :: rest) (hw : s.consumerIn = []) :
    step s = .next { s with turns := rest } := by
  simp [step, takeTurn, ht, consumerStep, hw]

/-- Running a word of the agent's interface. -/
theorem runWord_ok (a : Agent) (w : TransWord) (i : Instr) (s : State) (hd : decode w = .ok i) (hi : i.agent = a) :
    runWord a w s = exec i s := by
  simp [runWord, hd, hi]

/-- A word that answers a next state is a transaction of the agent's interface, executed. -/
theorem runWord_next (a : Agent) (w : TransWord) (s u : State) (h : runWord a w s = .next u) :
    ∃ i, decode w = .ok i ∧ i.agent = a ∧ exec i s = .next u := by
  unfold runWord at h
  split at h
  · cases h
  · rename_i i hd
    split at h
    · rename_i hi; exact ⟨i, hd, hi, h⟩
    · cases h

/-- Everything a step that answers a next state can be. -/
theorem step_cases (s u : State) (h : step s = .next u) :
    (s.turns = [] ∧ u = s) ∨
    (∃ k rest p, s.turns = .producer k :: rest ∧ s.pub = some p ∧
      u = publishEvent k p { s with turns := rest, pick := k }) ∨
    (∃ k rest, s.turns = .producer k :: rest ∧ s.pub = none ∧ s.producerIn = [] ∧
      u = { s with turns := rest, pick := k }) ∨
    (∃ k rest w ws i, s.turns = .producer k :: rest ∧ s.pub = none ∧ s.producerIn = w :: ws ∧ decode w = .ok i ∧
      i.agent = .producer ∧ exec i { s with turns := rest, pick := k, producerIn := ws } = .next u) ∨
    (∃ rest, s.turns = .consumer :: rest ∧ s.consumerIn = [] ∧ u = { s with turns := rest }) ∨
    (∃ rest w ws i, s.turns = .consumer :: rest ∧ s.consumerIn = w :: ws ∧ decode w = .ok i ∧
      i.agent = .consumer ∧ exec i { s with turns := rest, consumerIn := ws } = .next u) := by
  have hl {α : Type} (l : List α) : l = [] ∨ ∃ x xs, l = x :: xs := by cases l <;> simp
  rcases hl s.turns with ht | ⟨t, rest, ht⟩
  · rw [step_idle s ht] at h; cases h; exact .inl ⟨ht, rfl⟩
  cases t with
  | producer k =>
    rcases Option.eq_none_or_eq_some s.pub with hp | ⟨p, hp⟩
    · rcases hl s.producerIn with hw | ⟨w, ws, hw⟩
      · rw [step_producer_idle s k rest ht hp hw] at h; cases h
        exact .inr (.inr (.inl ⟨k, rest, ht, hp, hw, rfl⟩))
      · rw [step_producer s k rest w ws ht hp hw] at h
        obtain ⟨i, hd, hi, he⟩ := runWord_next _ _ _ _ h
        exact .inr (.inr (.inr (.inl ⟨k, rest, w, ws, i, ht, hp, hw, hd, hi, he⟩)))
    · rw [step_publish s k rest p ht hp] at h; cases h
      exact .inr (.inl ⟨k, rest, p, ht, hp, rfl⟩)
  | consumer =>
    rcases hl s.consumerIn with hw | ⟨w, ws, hw⟩
    · rw [step_consumer_idle s rest ht hw] at h; cases h
      exact .inr (.inr (.inr (.inr (.inl ⟨rest, ht, hw, rfl⟩))))
    · rw [step_consumer s rest w ws ht hw] at h
      obtain ⟨i, hd, hi, he⟩ := runWord_next _ _ _ _ h
      exact .inr (.inr (.inr (.inr (.inr ⟨rest, w, ws, i, ht, hw, hd, hi, he⟩))))

end Sys2Proof.Machine
end

