-- ==== Sys2Proof/Laws/Collector.lean ====
section
/-! SUPPORT. What the window shift, the placement of a payload bit and the end of a frame do, said once for each. -/

namespace Sys2Proof.Machine

/-- Reading a byte of a buffer in which one byte was placed. -/
theorem placeByte_getElem (buf : Buffer) (a : Nat) (first : Bool) (bits : Byte) (x : Fin bufBytes) :
    (placeByte buf a first bits)[x] = if x.val = a then (if first then bits else buf[x] ||| bits) else buf[x] := by
  obtain ⟨x, hx⟩ := x
  simp only [placeByte, Fin.getElem_fin]
  split
  · rename_i h
    rw [Vector.getElem_set]
    by_cases hxa : a = x
    · subst hxa; simp
    · rw [if_neg hxa, if_neg (Ne.symm hxa)]
  · rename_i h
    rw [if_neg (by omega)]

/-- A byte with one bit at a position. -/
theorem bitByte_getLsbD (v : Bool) (pos p : Nat) (hp : p < 8) : (bitByte v pos).getLsbD p = (decide (p = pos) && v) := by
  simp only [bitByte, BitVec.getLsbD_shiftLeft, BitVec.getLsbD_setWidth, hp, decide_true, Bool.true_and]
  by_cases h : p < pos
  · simp [h, show p ≠ pos by omega]
  · by_cases h2 : p = pos
    · subst h2; simp
    · simp [h, h2, show p - pos < 8 by omega, BitVec.getLsbD_ofBool, show p - pos ≠ 0 by omega]

/-- The whole effect of `put(d)` (R191 to R195). -/
theorem putBit_effect (spec : PatternSpec) (d : Bool) (s : State) :
    PutEffect spec d (decide (s.mode = .dataUart8N1)) s (putBit spec d s).stage (putBit spec d s).fault
      (putBit spec d s).subCount (putBit spec d s).base where
  bits x p hp := by
    have hpos : bitPosition s.mode s.subCount.toNat =
        if s.mode = .dataUart8N1 then s.subCount.toNat % 8 else 7 - s.subCount.toNat % 8 := by
      cases s.mode <;> rfl
    simp only [putBit_stage, placeByte_getElem, byteAddress]
    by_cases hx : x.val = s.base.toNat + s.subCount.toNat / 8
    · rw [if_pos hx, if_pos hx]
      by_cases hk : s.subCount.toNat % 8 = 0
      · simp [hk, bitByte_getLsbD _ _ _ hp, hpos]
      · simp [hk, bitByte_getLsbD _ _ _ hp, hpos]
    · rw [if_neg hx, if_neg hx]
  overflow := rfl
  counter := by simp [endsSubBlock]
  cursor := by simp [endsSubBlock]

/-- The shifted window has the new bit at 0 and the old bits above (R162). -/
theorem shiftWindow_isShift (b : Bool) (s : State) : IsShift s.window b (shiftWindow b s).window := by
  intro i hi
  simp only [shiftWindow_window, BitVec.getLsbD_concat, BitVec.getLsbD_setWidth]
  by_cases h : i = 0
  · simp [h]
  · rw [if_neg h, if_neg h]
    simp only [Bool.and_eq_right_iff_imp, decide_eq_true_eq]
    intro _
    simp only [winBits] at hi
    omega

/-- R162 determines the window. -/
theorem isShift_unique {old new new' : BitVec winBits} {b : Bool} (h : IsShift old b new) (h' : IsShift old b new') :
    new = new' :=
  BitVec.eq_of_getLsbD_eq fun i hi => (h i hi).trans (h' i hi).symm

theorem shiftWindow_eq {s : State} {b : Bool} {w : BitVec winBits} (h : IsShift s.window b w) :
    shiftWindow b s = { s with window := w } := by
  rw [isShift_unique h (shiftWindow_isShift b s)]
  rfl

/-- FEED in HUNT with no publish pending. -/
theorem exec_feed_hunt (s : State) (b : Bool) (t : Word) (hp : s.pub = none) (hm : s.mode = .hunt) :
    exec (.feed b t) s = .next (respond .producer okResponse (huntStep t (shiftWindow b s))) := by
  simp [exec, execFeed, holdUntilPublished_none _ _ hp, feedShifted, hm]

/-- FEED outside HUNT with no publish pending and an installed active entry. -/
theorem exec_feed_collect (s : State) (b : Bool) (t : Word) (spec : PatternSpec) (hp : s.pub = none)
    (hm : s.mode ≠ .hunt) (ha : s.activeSpec = some spec) :
    exec (.feed b t) s = .next (respond .producer okResponse (collect spec b (shiftWindow b s))) := by
  have ha' : (shiftWindow b s).activeSpec = some spec := ha
  simp only [exec, execFeed, holdUntilPublished_none _ _ hp, feedShifted, shiftWindow_mode, ha']

/-- FEED outside HUNT with no installed active entry. -/
theorem exec_feed_noActive (s : State) (b : Bool) (t : Word) (hp : s.pub = none)
    (hm : s.mode ≠ .hunt) (ha : s.activeSpec = none) : exec (.feed b t) s = .fault .noActivePattern := by
  have ha' : (shiftWindow b s).activeSpec = none := ha
  simp only [exec, execFeed, holdUntilPublished_none _ _ hp, feedShifted, shiftWindow_mode, ha']

/-- The hook's result is what the hook gives (R12, R221). -/
theorem hook_gives (spec : PatternSpec) (data : Buffer) (param : Half) (rxTime : Word) :
    (spec.postProcess = 0 → (hook spec.postProcess spec data param rxTime) = (data, param)) ∧
    (spec.postProcess ≠ 0 →
      hook spec.postProcess spec data param rxTime = Config.freeHook spec.postProcess spec data param rxTime) := by
  constructor <;> intro h <;> unfold hook
  · rw [if_pos h]
  · rw [if_neg h]

/-- With invariant 1 of R52 the active entry of a state outside HUNT is installed. -/
theorem State.ActiveInv.activeSpec {s : State} (h : s.ActiveInv) (hm : s.mode ≠ .hunt) :
    ∃ spec, s.activeSpec = some spec ∧ s.mode = spec.dataState := by
  obtain ⟨i, hi⟩ := Option.ne_none_iff_exists'.1 (h.1.1 hm)
  obtain ⟨spec, hs, hd⟩ := h.2 i hi
  exact ⟨spec, by simp [State.activeSpec, hi, hs], hd⟩

/-! ### Match selection -/

/-- The first match from index i on, and that no entry before it matches (R164). -/
theorem findMatch_some (w : BitVec winBits) : ∀ (table : List PatternSpec) (i j : Nat) (spec : PatternSpec),
    findMatch w i table = some (j, spec) ↔
      i ≤ j ∧ table[j - i]? = some spec ∧ patternMatches spec w = true ∧
        ∀ k q, k < j - i → table[k]? = some q → patternMatches q w = false := by
  intro table
  induction table with
  | nil => intro i j spec; simp [findMatch]
  | cons e rest ih =>
    intro i j spec
    simp only [findMatch]
    split
    · rename_i he
      constructor
      · intro h
        cases h
        refine ⟨Nat.le_refl _, by simp, he, ?_⟩
        intro k q hk
        omega
      · rintro ⟨hij, hj, hm, hb⟩
        by_cases hji : j = i
        · subst hji
          simp at hj
          subst hj
          rfl
        · have := hb 0 e (by omega) (by simp)
          simp [he] at this
    · rename_i he
      rw [ih]
      constructor
      · rintro ⟨hij, hj, hm, hb⟩
        refine ⟨by omega, ?_, hm, ?_⟩
        · rw [show j - i = (j - (i + 1)) + 1 by omega]; simpa using hj
        · intro k q hk hq
          cases k with
          | zero => simp at hq; subst hq; simpa using he
          | succ k => exact hb k q (by omega) (by simpa using hq)
      · rintro ⟨hij, hj, hm, hb⟩
        by_cases hji : j = i
        · subst hji
          simp at hj
          subst hj
          exact absurd hm he
        · refine ⟨by omega, ?_, hm, ?_⟩
          · rw [show j - i = (j - (i + 1)) + 1 by omega] at hj; simpa using hj
          · intro k q hk hq
            exact hb (k + 1) q (by omega) (by simpa using hq)

theorem findMatch_none (w : BitVec winBits) : ∀ (table : List PatternSpec) (i : Nat),
    findMatch w i table = none ↔ ∀ q ∈ table, patternMatches q w = false := by
  intro table
  induction table with
  | nil => intro i; simp [findMatch]
  | cons e rest ih =>
    intro i
    simp only [findMatch]
    split
    · rename_i he; simp [he]
    · rename_i he; simp [ih, he]

end Sys2Proof.Machine
end

