-- ==== Sys2Proof/Laws/Feed.lean ====
section
/-! SUPPORT. What a FEED leaves alone, said once, and the two ways a FEED with no publish pending ends. -/

namespace Sys2Proof.Machine

/-- What a FEED never changes: the table and every parameter, POOL, STAGE, `cfgStatus`, `overrunCount` and the model's own queues;
and it never clears `fault`. -/
structure FeedFrame (s u : State) : Prop where
  table : u.table = s.table
  params : u.params = s.params
  pool : u.pool = s.pool
  sdesc : u.sdesc = s.sdesc
  cfgStatus : u.cfgStatus = s.cfgStatus
  overrunCount : u.overrunCount = s.overrunCount
  turns : u.turns = s.turns
  pick : u.pick = s.pick
  producerIn : u.producerIn = s.producerIn
  consumerIn : u.consumerIn = s.consumerIn
  consumerResp : u.consumerResp = s.consumerResp
  fault : s.fault = true → u.fault = true

theorem FeedFrame.rfl' (s : State) : FeedFrame s s := by constructor <;> intros <;> first | rfl | assumption

theorem FeedFrame.trans {s t u : State} (h : FeedFrame s t) (k : FeedFrame t u) : FeedFrame s u where
  table := k.table.trans h.table
  params := k.params.trans h.params
  pool := k.pool.trans h.pool
  sdesc := k.sdesc.trans h.sdesc
  cfgStatus := k.cfgStatus.trans h.cfgStatus
  overrunCount := k.overrunCount.trans h.overrunCount
  turns := k.turns.trans h.turns
  pick := k.pick.trans h.pick
  producerIn := k.producerIn.trans h.producerIn
  consumerIn := k.consumerIn.trans h.consumerIn
  consumerResp := k.consumerResp.trans h.consumerResp
  fault hs := k.fault (h.fault hs)

theorem completeFrame_frame (spec : PatternSpec) (s : State) : FeedFrame s (completeFrame spec s) := by
  constructor <;> intros <;> first | rfl | assumption

theorem putBit_frame (spec : PatternSpec) (d : Bool) (s : State) : FeedFrame s (putBit spec d s) := by
  constructor <;> intros <;> first | rfl | simp_all [overflowFlag]

theorem completeIfFull_frame (spec : PatternSpec) (s : State) : FeedFrame s (completeIfFull spec s) := by
  unfold completeIfFull
  split
  · exact completeFrame_frame spec s
  · exact .rfl' s

theorem shiftWindow_frame (b : Bool) (s : State) : FeedFrame s (shiftWindow b s) := by
  constructor <;> intros <;> first | rfl | assumption

theorem countBit_frame (s : State) : FeedFrame s (countBit s) := by
  constructor <;> intros <;> first | rfl | assumption

theorem uartStart_frame (b : Bool) (s : State) : FeedFrame s (uartStart b s) := by
  constructor <;> intros <;> first | rfl | assumption

theorem uartData_frame (spec : PatternSpec) (b : Bool) (s : State) : FeedFrame s (uartData spec b s) := by
  have h (x : State) : FeedFrame x { countBit x with uartPhase := s.uartPhase + 1 } := by
    constructor <;> intros <;> first | rfl | assumption
  unfold uartData
  split
  · exact (putBit_frame spec b s).trans (h _)
  · exact h s

theorem uartStop_frame (spec : PatternSpec) (b : Bool) (s : State) : FeedFrame s (uartStop spec b s) := by
  have h : FeedFrame s { countFraming (!b) s with uartPhase := 0 } := by
    constructor <;> intros <;> first | rfl | assumption
  unfold uartStop
  dsimp only
  split
  · exact h.trans (completeFrame_frame spec _)
  · exact h

/-- Everything `collect` never changes. -/
theorem collect_frame (spec : PatternSpec) (b : Bool) (s : State) : FeedFrame s (collect spec b s) := by
  unfold collect
  split
  · exact .rfl' s
  · exact ((putBit_frame spec b s).trans (countBit_frame _)).trans (completeIfFull_frame spec _)
  · unfold uartStep
    split
    · exact uartStart_frame b s
    · split
      · exact uartData_frame spec b s
      · exact uartStop_frame spec b s
  · unfold biphaseStep
    split
    · constructor <;> intros <;> first | rfl | assumption
    · have h : FeedFrame s { s with half := none } := by constructor <;> intros <;> first | rfl | assumption
      exact ((h.trans (putBit_frame spec _ _)).trans (countBit_frame _)).trans (completeIfFull_frame spec _)

theorem huntStep_frame (t : Word) (s : State) : FeedFrame s (huntStep t s) := by
  have h (i : Nat) (spec : PatternSpec) : FeedFrame s (startFrame i spec t s) := by
    constructor <;> intros <;> first | rfl | assumption
  unfold huntStep
  split
  · rename_i i spec _
    unfold matchPattern
    split
    · exact (h i spec).trans (completeFrame_frame spec _)
    · exact h i spec
  · exact .rfl' s

theorem respond_producer_frame (r : Response) (s : State) : FeedFrame s (respond .producer r s) := by
  constructor <;> intros <;> first | rfl | assumption

/-- The two ways a FEED that answers a next state ends, with no publish pending. -/
theorem exec_feed_cases (s u : State) (b : Bool) (t : Word) (hp : s.pub = none) (h : exec (.feed b t) s = .next u) :
    (s.mode = .hunt ∧ u = respond .producer okResponse (huntStep t (shiftWindow b s))) ∨
    (s.mode ≠ .hunt ∧ ∃ spec, s.activeSpec = some spec ∧
      u = respond .producer okResponse (collect spec b (shiftWindow b s))) := by
  by_cases hm : s.mode = .hunt
  · rw [exec_feed_hunt s b t hp hm] at h
    cases h
    exact .inl ⟨hm, rfl⟩
  · rcases Option.eq_none_or_eq_some s.activeSpec with ha | ⟨spec, ha⟩
    · rw [exec_feed_noActive s b t hp hm ha] at h
      cases h
    · rw [exec_feed_collect s b t spec hp hm ha] at h
      cases h
      exact .inr ⟨hm, spec, ha, rfl⟩

/-- Everything a FEED never changes. -/
theorem exec_feed_frame (s u : State) (b : Bool) (t : Word) (hp : s.pub = none) (h : exec (.feed b t) s = .next u) :
    FeedFrame s u := by
  rcases exec_feed_cases s u b t hp h with ⟨-, rfl⟩ | ⟨-, spec, -, rfl⟩
  · exact ((shiftWindow_frame b s).trans (huntStep_frame t _)).trans (respond_producer_frame _ _)
  · exact ((shiftWindow_frame b s).trans (collect_frame spec b _)).trans (respond_producer_frame _ _)

end Sys2Proof.Machine
end

