-- ==== Sys2Proof/Laws/PerInstr.lean ====
section
/-! SUPPORT. A law of every transaction as syntax: the kind in its word's T[63:60] names the interface that can issue it
(30_encoding.md R120, R121). -/

namespace Sys2Proof

/-- The kind of a word that has the kind field at its place. -/
@[simp] theorem wordField_kind (k : BitVec 4) : (wordField k 60).extractLsb' 60 4 = k := by
  apply BitVec.eq_of_getLsbD_eq
  intro i hi
  simp only [wordField, BitVec.getLsbD_extractLsb', BitVec.getLsbD_shiftLeft, BitVec.getLsbD_setWidth, hi]
  simp [show 60 + i < 64 by omega, show i < 64 by omega]

/-- A field that ends below T[60] does not reach the kind. -/
theorem wordField_below {n : Nat} (v : BitVec n) (pos : Nat) (h : n + pos ≤ 60) :
    (wordField v pos).extractLsb' 60 4 = 0 := by
  apply BitVec.eq_of_getLsbD_eq
  intro i hi
  simp only [wordField, BitVec.getLsbD_extractLsb', BitVec.getLsbD_shiftLeft, BitVec.getLsbD_setWidth]
  simp [BitVec.getLsbD_of_ge v (60 + i - pos) (by omega)]

@[simp] theorem encodeFeed_kind (b : Bool) (t : Word) : (encodeFeed b t).extractLsb' 60 4 = 0x1 := by
  simp [encodeFeed, BitVec.extractLsb'_or, wordField_below]

@[simp] theorem encodeRegWrite_kind (off : BitVec 12) (v : Word) : (encodeRegWrite off v).extractLsb' 60 4 = 0x2 := by
  simp [encodeRegWrite, BitVec.extractLsb'_or, wordField_below]

@[simp] theorem encodeCommand_kind (count : Byte) (op : BitVec 4) :
    (encodeCommand count op).extractLsb' 60 4 = 0x2 := by
  simp [encodeCommand, BitVec.extractLsb'_or, wordField_below]

@[simp] theorem encodeRegRead_kind (off : BitVec 12) : (encodeRegRead off).extractLsb' 60 4 = 0x3 := by
  simp [encodeRegRead, BitVec.extractLsb'_or, wordField_below]

@[simp] theorem encodePoolRead_kind (sz : BitVec 2) (addr : BitVec 13) :
    (encodePoolRead sz addr).extractLsb' 60 4 = 0x4 := by
  simp [encodePoolRead, BitVec.extractLsb'_or, wordField_below]

@[simp] theorem encodePoolWrite_kind (sz : BitVec 2) (addr : BitVec 13) (v : Byte) :
    (encodePoolWrite sz addr v).extractLsb' 60 4 = 0x5 := by
  simp [encodePoolWrite, BitVec.extractLsb'_or, wordField_below]

namespace Laws.Port

/-- The word of a transaction has a kind of its agent's interface: FEED, REG_WRITE and REG_READ (kinds 1 to 3) are the
producer's, POOL_READ and POOL_WRITE (kinds 4 and 5) the consumer's. -/
def Statement (i : Instr) : Prop :=
  match i.agent with
  | .producer => (encode i).extractLsb' 60 4 ∈ [0x1#4, 0x2#4, 0x3#4]
  | .consumer => (encode i).extractLsb' 60 4 ∈ [0x4#4, 0x5#4]

theorem feed (b : Bool) (t : Word) : Statement (.feed b t) := by simp [Statement, Instr.agent, encode]

theorem regWrite (off : BitVec 12) (v : Word) : Statement (.regWrite off v) := by simp [Statement, Instr.agent, encode]

theorem cmdNop : Statement .cmdNop := by simp [Statement, Instr.agent, encode]

theorem cmdOpen : Statement .cmdOpen := by simp [Statement, Instr.agent, encode]

theorem cmdConfigure (count : Byte) : Statement (.cmdConfigure count) := by simp [Statement, Instr.agent, encode]

theorem cmdIllegal3 : Statement .cmdIllegal3 := by simp [Statement, Instr.agent, encode]

theorem cmdIllegal4To7 (op : BitVec 4) : Statement (.cmdIllegal4To7 op) := by simp [Statement, Instr.agent, encode]

theorem cmdIllegal8ToF (op : BitVec 4) : Statement (.cmdIllegal8ToF op) := by simp [Statement, Instr.agent, encode]

theorem regRead (off : BitVec 12) : Statement (.regRead off) := by simp [Statement, Instr.agent, encode]

theorem poolRead8 (addr : BitVec 13) : Statement (.poolRead8 addr) := by simp [Statement, Instr.agent, encode]

theorem poolRead16 (addr : BitVec 13) : Statement (.poolRead16 addr) := by simp [Statement, Instr.agent, encode]

theorem poolRead32 (addr : BitVec 13) : Statement (.poolRead32 addr) := by simp [Statement, Instr.agent, encode]

theorem poolReadSz3 (addr : BitVec 13) : Statement (.poolReadSz3 addr) := by simp [Statement, Instr.agent, encode]

theorem poolWrite8 (addr : BitVec 13) (v : Byte) : Statement (.poolWrite8 addr v) := by
  simp [Statement, Instr.agent, encode]

theorem poolWriteBadSz (sz : BitVec 2) (addr : BitVec 13) (v : Byte) : Statement (.poolWriteBadSz sz addr v) := by
  simp [Statement, Instr.agent, encode]

end Laws.Port

end Sys2Proof
end

