-- ==== Sys2Proof/Laws/Pool.lean ====
section
/-! SUPPORT. What the consumer's transactions can do, said once: which they are, that each answers at once, and the bytes a read
sees. -/

namespace Sys2Proof.Machine

/-- The consumer's transactions (R120). -/
theorem Instr.consumer_cases : ∀ i : Instr, i.agent = .consumer →
    (∃ addr, i = .poolRead8 addr) ∨ (∃ addr, i = .poolRead16 addr) ∨ (∃ addr, i = .poolRead32 addr) ∨
      (∃ addr, i = .poolReadSz3 addr) ∨ (∃ addr v, i = .poolWrite8 addr v) ∨ ∃ sz addr v, i = .poolWriteBadSz sz addr v
  | .feed _ _, h => nomatch h
  | .regWrite _ _, h => nomatch h
  | .cmdNop, h => nomatch h
  | .cmdOpen, h => nomatch h
  | .cmdConfigure _, h => nomatch h
  | .cmdIllegal3, h => nomatch h
  | .cmdIllegal4To7 _, h => nomatch h
  | .cmdIllegal8ToF _, h => nomatch h
  | .regRead _, h => nomatch h
  | .poolRead8 addr, _ => .inl ⟨addr, rfl⟩
  | .poolRead16 addr, _ => .inr (.inl ⟨addr, rfl⟩)
  | .poolRead32 addr, _ => .inr (.inr (.inl ⟨addr, rfl⟩))
  | .poolReadSz3 addr, _ => .inr (.inr (.inr (.inl ⟨addr, rfl⟩)))
  | .poolWrite8 addr v, _ => .inr (.inr (.inr (.inr (.inl ⟨addr, v, rfl⟩))))
  | .poolWriteBadSz sz addr v, _ => .inr (.inr (.inr (.inr (.inr ⟨sz, addr, v, rfl⟩))))

/-- What a read of n bytes answers (R247). -/
theorem poolRead_eq (n : Nat) (addr : BitVec 13) (s : State) :
    poolRead n addr s =
      .next { s with
        consumerResp := some (if addr.toNat % n = 0 then ⟨.ok, s.pool.readLE addr.toNat n⟩ else ⟨.poolAlign, 0⟩) } := by
  unfold poolRead poolAligned
  split <;> simp_all [respond, raiseError]

/-- What a POOL_WRITE8 does (R248). -/
theorem execPoolWrite8_eq (addr : BitVec 13) (v : Byte) (s : State) :
    execPoolWrite8 addr v s =
      .next { s with
        pool := if addr.toNat % 0x800 = 0x400 ∧ v = 0 then s.pool.writeByte addr.toNat 0 else s.pool
        consumerResp := some ⟨.ok, 0⟩ } := by
  unfold execPoolWrite8 clearsValid
  split <;> simp_all [respond, okResponse]

/-- Everything a consumer's transaction can do: it always answers, `pool` is as before or loses one `valid`, and the response is
new. -/
theorem exec_consumer (i : Instr) (s : State) (h : i.agent = .consumer) :
    ∃ (m : Memory) (r : Response), exec i s = .next { s with pool := m, consumerResp := some r } ∧
      (m = s.pool ∨ ∃ addr : BitVec 13, addr.toNat % 0x800 = 0x400 ∧ m = s.pool.writeByte addr.toNat 0) := by
  rcases Instr.consumer_cases i h with ⟨a, rfl⟩ | ⟨a, rfl⟩ | ⟨a, rfl⟩ | ⟨a, rfl⟩ | ⟨a, v, rfl⟩ | ⟨sz, a, v, rfl⟩
  · exact ⟨_, _, poolRead_eq 1 a s, .inl rfl⟩
  · exact ⟨_, _, poolRead_eq 2 a s, .inl rfl⟩
  · exact ⟨_, _, poolRead_eq 4 a s, .inl rfl⟩
  · exact ⟨_, _, rfl, .inl rfl⟩
  · refine ⟨_, _, execPoolWrite8_eq a v s, ?_⟩
    split
    · rename_i hc; exact .inr ⟨a, hc.1, rfl⟩
    · exact .inl rfl
  · exact ⟨_, _, rfl, .inl rfl⟩

/-- A byte of a read: little-endian, 0 beyond the size (R247, R96). -/
theorem Memory.readLE_byte (n : Nat) : ∀ (m : Memory) (a k : Nat), k < 4 →
    (m.readLE a n).extractLsb' (8 * k) 8 = if k < n then m.poolByte (a + k) else 0 := by
  induction n with
  | zero => intro m a k _; simp [Memory.readLE]
  | succ n ih =>
    intro m a k hk
    simp only [Memory.readLE]
    cases k with
    | zero =>
      rw [if_pos (by omega)]
      ext i hi
      simp [hi]
      omega
    | succ k =>
      have := ih m (a + 1) k (by omega)
      rw [show a + 1 + k = a + (k + 1) by omega] at this
      simp only [Nat.add_lt_add_iff_right]
      rw [← this]
      ext i hi
      have h1 : ¬ 8 * (k + 1) + i < 8 := by omega
      have h2 : 8 * (k + 1) + i < 32 := by omega
      simp only [BitVec.getElem_extractLsb', BitVec.getLsbD_or, BitVec.getLsbD_setWidth, BitVec.getLsbD_shiftLeft, h1, h2,
        decide_true, decide_false, Bool.true_and, Bool.not_false, show 8 * (k + 1) + i - 8 = 8 * k + i by omega]
      rw [BitVec.getLsbD_of_ge _ _ (by omega), Bool.false_or]

end Sys2Proof.Machine
end

