-- ==== Sys2Proof/Laws/Registers.lean ====
section
/-! SUPPORT. What the host register transactions and the commands do with no publish pending, said once for each. -/

namespace Sys2Proof.Machine

/-- An aligned REG_WRITE (R270). -/
theorem exec_regWrite (off : BitVec 12) (v : Word) (s : State) (hp : s.pub = none) (ha : off.toNat % 4 = 0) :
    exec (.regWrite off v) s =
      .next (respond .producer okResponse (writeReg v s (hostReg s.params.npatMax off))) := by
  simp [exec, execRegWrite, holdUntilPublished_none _ _ hp, regAligned, ha]

/-- A misaligned REG_WRITE (R272). -/
theorem exec_regWrite_misaligned (off : BitVec 12) (v : Word) (s : State) (hp : s.pub = none) (ha : off.toNat % 4 ≠ 0) :
    exec (.regWrite off v) s = .next (respond .producer ⟨.regAlign, 0⟩ s) := by
  simp [exec, execRegWrite, holdUntilPublished_none _ _ hp, regAligned, ha, raiseError]

/-- An aligned REG_READ (R271). -/
theorem exec_regRead (off : BitVec 12) (s : State) (hp : s.pub = none) (ha : off.toNat % 4 = 0) :
    exec (.regRead off) s = .next (respond .producer ⟨.ok, regValue s (hostReg s.params.npatMax off)⟩ s) := by
  simp [exec, execRegRead, holdUntilPublished_none _ _ hp, regAligned, ha]

/-- A misaligned REG_READ (R272). -/
theorem exec_regRead_misaligned (off : BitVec 12) (s : State) (hp : s.pub = none) (ha : off.toNat % 4 ≠ 0) :
    exec (.regRead off) s = .next (respond .producer ⟨.regAlign, 0⟩ s) := by
  simp [exec, execRegRead, holdUntilPublished_none _ _ hp, regAligned, ha, raiseError]

/-- A command with no publish pending (R270). -/
theorem runCommand_none (effect : State → State) (s : State) (hp : s.pub = none) :
    runCommand effect s = .next (respond .producer okResponse (effect s)) :=
  holdUntilPublished_none s _ hp

/-- The registers from offset 0x100 on (R62, R79). -/
theorem hostReg_high (npatMax : Nat) (off : BitVec 12) (h : 0x100 ≤ off.toNat) :
    hostReg npatMax off =
      if off.toNat < 0x100 + 0x20 * npatMax then .stage ((off.toNat - 0x100) / 0x20) ((off.toNat - 0x100) / 4 % 8)
      else .reserved := by
  have hne (c : BitVec 12) (hc : c.toNat < 0x100) : off ≠ c := by rintro rfl; omega
  unfold hostReg
  rw [if_neg (hne 0 (by decide)), if_neg (hne 4 (by decide)), if_neg (hne 8 (by decide)), if_neg (hne 0xC (by decide)), if_neg (hne 0x10 (by decide)), if_neg (hne 0x14 (by decide)), if_neg (hne 0x18 (by decide)), if_neg
    (hne 0x1C (by decide)), if_neg (hne 0x20 (by decide)), if_neg (hne 0x24 (by decide)), if_neg (hne 0x28 (by decide)), if_neg (hne 0x2C (by decide)), if_neg (hne 0x30 (by decide)), if_neg (hne 0x34 (by decide)), if_neg
    (hne 0x38 (by decide)), if_neg (hne 0x3C (by decide)), if_neg (hne 0x40 (by decide))]
  simp only [h, true_and]

/-- The register at a STAGE offset (R62). -/
theorem hostReg_stage (npatMax i w : Nat) (hn : npatMax ≤ 120) (hi : i < npatMax) (hw : w < 8) :
    hostReg npatMax (BitVec.ofNat 12 (0x100 + 0x20 * i + 4 * w)) = .stage i w := by
  have ht : (BitVec.ofNat 12 (0x100 + 0x20 * i + 4 * w)).toNat = 0x100 + 0x20 * i + 4 * w := by
    rw [BitVec.toNat_ofNat, Nat.mod_eq_of_lt (by omega)]
  rw [hostReg_high _ _ (by omega), ht, if_pos (by omega)]
  congr 1 <;> omega

/-- Below offset 0x100 there is no STAGE word. -/
theorem hostReg_low (npatMax : Nat) (off : BitVec 12) (h : off.toNat < 0x100) (i w : Nat) :
    hostReg npatMax off ≠ .stage i w := by
  have step {c : Prop} [Decidable c] {a b : HostReg} (ha : a ≠ .stage i w) (hb : b ≠ .stage i w) :
      (if c then a else b) ≠ .stage i w := by
    by_cases hc : c
    · rwa [if_pos hc]
    · rwa [if_neg hc]
  unfold hostReg
  iterate 17 refine step (by nofun) ?_
  rw [if_neg (by omega)]
  nofun

/-- The STAGE words an offset can name (R62, R270). -/
theorem hostReg_stage_bounds (npatMax : Nat) (off : BitVec 12) (i w : Nat) (h : hostReg npatMax off = .stage i w) :
    i < npatMax ∧ w < 8 := by
  by_cases ho : 0x100 ≤ off.toNat
  · rw [hostReg_high _ _ ho] at h
    by_cases hb : off.toNat < 0x100 + 0x20 * npatMax
    · rw [if_pos hb] at h
      cases h
      constructor <;> omega
    · rw [if_neg hb] at h
      cases h
  · exact absurd h (hostReg_low npatMax off (by omega) i w)

/-! ### CONFIGURE -/

/-- No entry fails (R278). -/
theorem firstRejected_none : ∀ (specs : List PatternSpec) (i : Nat),
    firstRejected i specs = none ↔ ∀ q ∈ specs, firstFailingCheck q = .none := by
  intro specs
  induction specs with
  | nil => intro i; simp [firstRejected]
  | cons e rest ih =>
    intro i
    simp only [firstRejected]
    split
    · rename_i he; simp [he]
    · rename_i he; simp at he; simp [ih, he]

/-- The first entry that fails, and its cause (R278, R286). -/
theorem firstRejected_some : ∀ (specs : List PatternSpec) (i j : Nat) (c : CfgCause),
    firstRejected i specs = some (j, c) ↔
      i ≤ j ∧ (∃ q, specs[j - i]? = some q ∧ firstFailingCheck q = c) ∧ c ≠ .none ∧
        ∀ k q, k < j - i → specs[k]? = some q → firstFailingCheck q = .none := by
  intro specs
  induction specs with
  | nil => intro i j c; simp [firstRejected]
  | cons e rest ih =>
    intro i j c
    simp only [firstRejected]
    split
    · rename_i he
      constructor
      · intro h
        cases h
        exact ⟨Nat.le_refl _, ⟨e, by simp, rfl⟩, he, fun k q hk => by omega⟩
      · rintro ⟨hij, ⟨q, hq, hc⟩, -, hb⟩
        by_cases hji : j = i
        · subst hji
          simp at hq
          subst hq
          simp [hc]
        · exact absurd (hb 0 e (by omega) (by simp)) he
    · rename_i he
      simp at he
      rw [ih]
      constructor
      · rintro ⟨hij, ⟨q, hq, hc⟩, hn, hb⟩
        refine ⟨by omega, ⟨q, ?_, hc⟩, hn, ?_⟩
        · rw [show j - i = (j - (i + 1)) + 1 by omega]; simpa using hq
        · intro k q hk hq
          cases k with
          | zero => simp at hq; subst hq; exact he
          | succ k => exact hb k q (by omega) (by simpa using hq)
      · rintro ⟨hij, ⟨q, hq, hc⟩, hn, hb⟩
        by_cases hji : j = i
        · subst hji
          simp at hq
          subst hq
          exact absurd (hc.symm.trans he) hn
        · refine ⟨by omega, ⟨q, ?_, hc⟩, hn, ?_⟩
          · rw [show j - i = (j - (i + 1)) + 1 by omega] at hq; simpa using hq
          · intro k q hk hq
            exact hb (k + 1) q (by omega) (by simpa using hq)

theorem stagedSpecs_length (s : State) (count : Nat) : (stagedSpecs s count).length = count := by
  simp [stagedSpecs]

theorem stagedSpecs_getElem? (s : State) (count j : Nat) (h : j < count) :
    (stagedSpecs s count)[j]? = some (decodeDescriptor (s.sdescWord j)) := by
  simp [stagedSpecs, h]

/-- Everything CONFIGURE can do (R278): it rejects, changing `cfgStatus` alone, or installs a table whose entries all pass. -/
theorem configure_cases (count : Byte) (s : State) :
    (∃ cause entry, cause ≠ .none ∧
      configure count s = { s with cfgStatus := ⟨.rejected, cause, entry⟩ }) ∨
    (count.toNat ≤ s.params.npatMax ∧ (∀ q ∈ stagedSpecs s count.toNat, firstFailingCheck q = .none) ∧
      configure count s = acceptConfig (stagedSpecs s count.toNat) s) := by
  unfold configure
  split
  · exact .inl ⟨.countTooLarge, _, by decide, rfl⟩
  · rename_i hc
    split
    · rename_i i cause hr
      exact .inl ⟨cause, _, ((firstRejected_some _ _ _ _).1 hr).2.2.1, rfl⟩
    · rename_i hr
      exact .inr ⟨Nat.le_of_not_lt hc, (firstRejected_none _ _).1 hr, rfl⟩

/-! ### Every producer transaction but FEED -/

/-- What a command can do (R275): nothing, reset (OPEN), or write `cfgStatus`, with the table of a passing CONFIGURE. -/
inductive CommandEffect (s : State) : State → Prop where
  | nothing : CommandEffect s s
  | reset : CommandEffect s (machineReset s)
  | status (c : CfgStatus) : CommandEffect s { s with cfgStatus := c }
  | accept (count : Nat) (hc : count ≤ s.params.npatMax)
      (hq : ∀ q ∈ stagedSpecs s count, firstFailingCheck q = .none) :
      CommandEffect s (acceptConfig (stagedSpecs s count) s)

theorem configure_effect (count : Byte) (s : State) : CommandEffect s (configure count s) := by
  rcases configure_cases count s with ⟨cause, entry, -, h⟩ | ⟨hc, hq, h⟩
  · rw [h]; exact .status _
  · rw [h]; exact .accept _ hc hq

theorem command_effect (c : Word) (s : State) : CommandEffect s (command c s) := by
  unfold command
  dsimp only
  split
  · exact .nothing
  · split
    · exact .reset
    · split
      · exact configure_effect _ s
      · exact .status _

/-- Everything a producer transaction other than FEED can do with no publish pending: a new response, and a command's effect or one
STAGE word. Only OPEN, and REG_WRITE to CMD (which no word decodes to), reset; only they and CONFIGURE install a table. -/
theorem exec_producer (i : Instr) (s u : State) (hi : i.agent = .producer) (hp : s.pub = none) (h : exec i s = .next u) :
    (∃ b t, i = .feed b t) ∨ ∃ (r : Response) (t : State), u = respond .producer r t ∧
      ((∃ off v, i = .regWrite off v ∧ off ≠ 0 ∧
          (t = s ∨ ∃ j w, j < s.params.npatMax ∧ w < 8 ∧ t = s.setSdescWord j w v)) ∨
        (∃ v, i = .regWrite 0 v ∧ CommandEffect s t) ∨ (i = .cmdOpen ∧ t = machineReset s) ∨
        (∃ count, i = .cmdConfigure count ∧ t = configure count s) ∨ t = s ∨ t = illegalCommand s) := by
  cases i with
  | feed b t => exact .inl ⟨b, t, rfl⟩
  | regWrite off v =>
    right
    by_cases ha : off.toNat % 4 = 0
    · rw [exec_regWrite off v s hp ha] at h
      cases h
      refine ⟨_, _, rfl, ?_⟩
      by_cases h0 : off = 0
      · subst h0
        exact .inr (.inl ⟨v, rfl, command_effect v s⟩)
      · refine .inl ⟨off, v, rfl, h0, ?_⟩
        cases hr : hostReg s.params.npatMax off with
        | cmd =>
          exfalso
          by_cases hh : 0x100 ≤ off.toNat
          · rw [hostReg_high _ _ hh] at hr
            split at hr <;> cases hr
          · unfold hostReg at hr
            rw [if_neg h0] at hr
            have step {c : Prop} [Decidable c] {a b : HostReg} (ha : a ≠ .cmd) (hb : b ≠ .cmd) :
                (if c then a else b) ≠ .cmd := by
              by_cases hc : c
              · rwa [if_pos hc]
              · rwa [if_neg hc]
            revert hr
            iterate 17 refine step (by nofun) ?_
            nofun
        | stage j w =>
          obtain ⟨hj, hw⟩ := hostReg_stage_bounds _ _ _ _ hr
          exact .inr ⟨j, w, hj, hw, rfl⟩
        | _ => exact .inl rfl
    · rw [exec_regWrite_misaligned off v s hp ha] at h
      cases h
      refine ⟨_, _, rfl, ?_⟩
      by_cases h0 : off = 0
      · subst h0; exact absurd rfl ha
      · exact .inl ⟨off, v, rfl, h0, .inl rfl⟩
  | cmdNop =>
    rw [show exec .cmdNop s = _ from runCommand_none (fun s => s) s hp] at h
    cases h
    exact .inr ⟨_, _, rfl, .inr (.inr (.inr (.inr (.inl rfl))))⟩
  | cmdOpen =>
    rw [show exec .cmdOpen s = _ from runCommand_none _ s hp] at h
    cases h
    exact .inr ⟨_, _, rfl, .inr (.inr (.inl ⟨rfl, rfl⟩))⟩
  | cmdConfigure count =>
    rw [show exec (.cmdConfigure count) s = _ from runCommand_none _ s hp] at h
    cases h
    exact .inr ⟨_, _, rfl, .inr (.inr (.inr (.inl ⟨count, rfl, rfl⟩)))⟩
  | cmdIllegal3 =>
    rw [show exec .cmdIllegal3 s = _ from runCommand_none _ s hp] at h
    cases h
    exact .inr ⟨_, _, rfl, .inr (.inr (.inr (.inr (.inr rfl))))⟩
  | cmdIllegal4To7 op =>
    rw [show exec (.cmdIllegal4To7 op) s = _ from runCommand_none _ s hp] at h
    cases h
    exact .inr ⟨_, _, rfl, .inr (.inr (.inr (.inr (.inr rfl))))⟩
  | cmdIllegal8ToF op =>
    rw [show exec (.cmdIllegal8ToF op) s = _ from runCommand_none _ s hp] at h
    cases h
    exact .inr ⟨_, _, rfl, .inr (.inr (.inr (.inr (.inr rfl))))⟩
  | regRead off =>
    right
    by_cases ha : off.toNat % 4 = 0
    · rw [exec_regRead off s hp ha] at h
      cases h
      exact ⟨_, _, rfl, .inr (.inr (.inr (.inr (.inl rfl))))⟩
    · rw [exec_regRead_misaligned off s hp ha] at h
      cases h
      exact ⟨_, _, rfl, .inr (.inr (.inr (.inr (.inl rfl))))⟩
  | poolRead8 _ => exact nomatch hi
  | poolRead16 _ => exact nomatch hi
  | poolRead32 _ => exact nomatch hi
  | poolReadSz3 _ => exact nomatch hi
  | poolWrite8 _ _ => exact nomatch hi
  | poolWriteBadSz _ _ _ => exact nomatch hi

/-- The same by its effect alone. -/
theorem exec_producer_effect (i : Instr) (s u : State) (hi : i.agent = .producer) (hp : s.pub = none)
    (h : exec i s = .next u) :
    (∃ b t, i = .feed b t) ∨ ∃ (r : Response) (t : State), u = respond .producer r t ∧
      (CommandEffect s t ∨ ∃ j w v, j < s.params.npatMax ∧ w < 8 ∧ t = s.setSdescWord j w v) := by
  rcases exec_producer i s u hi hp h with hf | ⟨r, t, hu, hc⟩
  · exact .inl hf
  · refine .inr ⟨r, t, hu, ?_⟩
    rcases hc with ⟨off, v, -, -, ht | ⟨j, w, hj, hw, ht⟩⟩ | ⟨v, -, ht⟩ | ⟨-, ht⟩ | ⟨count, -, ht⟩ | ht | ht
    · subst ht; exact .inl .nothing
    · exact .inr ⟨j, w, v, hj, hw, ht⟩
    · exact .inl ht
    · subst ht; exact .inl .reset
    · subst ht; exact .inl (configure_effect count s)
    · subst ht; exact .inl .nothing
    · subst ht; exact .inl (.status _)

/-! ### Clearing every `valid` -/

theorem clearAllValid_readByte (m : Memory) (a : Nat) :
    (clearAllValid m).readByte a = if ∃ k, a = validAddr k then 0 else m.readByte a := by
  have hk : (∃ k, a = validAddr k) ↔ a = validAddr 0 ∨ a = validAddr 1 ∨ a = validAddr 2 ∨ a = validAddr 3 := by
    constructor
    · rintro ⟨k, rfl⟩
      match k with
      | 0 => exact .inl rfl
      | 1 => exact .inr (.inl rfl)
      | 2 => exact .inr (.inr (.inl rfl))
      | 3 => exact .inr (.inr (.inr rfl))
    · rintro (h | h | h | h) <;> exact ⟨_, h⟩
  simp only [clearAllValid, Memory.readByte_writeByte, hk]
  split_ifs <;> first | rfl | (exfalso; omega)

end Sys2Proof.Machine
end

