-- ==== Sys2Proof/Tests/Slice0.lean ====
section
/-! SUPPORT. Tests: what WellFormed refuses, decoding of words written out from spec/30_encoding.md, one-step checks whose
expected values are those of spec/95_test_vectors.md, and for each obligation with hypotheses a witness that meets them. -/

namespace Sys2Proof.Tests

open Sys2Proof Sys2Proof.Machine

/-! ## WellFormed -/

/-- opcode_table.json, REG_WRITE: "Any off other than 0x000". -/
theorem test_wf_refuses_regWrite_to_cmd : (Instr.regWrite 0x000 5).wellFormed = false := by decide

/-- CMD_ILLEGAL_4_7 is op 0x4..0x7. -/
theorem test_wf_refuses_illegal4To7_out_of_row :
    (Instr.cmdIllegal4To7 0x3).wellFormed = false ∧ (Instr.cmdIllegal4To7 0x8).wellFormed = false ∧
    (Instr.cmdIllegal4To7 0x4).wellFormed = true ∧ (Instr.cmdIllegal4To7 0x7).wellFormed = true := by decide

/-- CMD_ILLEGAL_8_F is op 0x8..0xF. -/
theorem test_wf_refuses_illegal8ToF_out_of_row :
    (Instr.cmdIllegal8ToF 0x7).wellFormed = false ∧ (Instr.cmdIllegal8ToF 0x8).wellFormed = true := by decide

/-- POOL_WRITE_BADSZ is a POOL_WRITE with sz in 1..3. -/
theorem test_wf_refuses_badSz_zero :
    (Instr.poolWriteBadSz 0 0x400 0).wellFormed = false ∧ (Instr.poolWriteBadSz 1 0x400 0).wellFormed = true := by decide

/-! ## Decoding (words from 30_encoding.md R121 to R132, R147 and 95_test_vectors.md) -/

theorem test_decode_feed : decode 0x1000000100000010 = .ok (.feed true 0x10) := by rfl
theorem test_decode_feed_b0 : decode 0x10000000FFFFFFFF = .ok (.feed false 0xFFFFFFFF) := by rfl
theorem test_decode_regWrite : decode 0x200001000000000B = .ok (.regWrite 0x100 0xB) := by rfl
theorem test_decode_nop : decode 0x2000000000000000 = .ok .cmdNop := by rfl
theorem test_decode_open : decode 0x2000000000000001 = .ok .cmdOpen := by rfl
theorem test_decode_configure : decode 0x2000000000001102 = .ok (.cmdConfigure 17) := by rfl
theorem test_decode_illegal3 : decode 0x2000000000000003 = .ok .cmdIllegal3 := by rfl
theorem test_decode_illegal5 : decode 0x2000000000000005 = .ok (.cmdIllegal4To7 5) := by rfl
theorem test_decode_illegalF : decode 0x200000000000000F = .ok (.cmdIllegal8ToF 0xF) := by rfl
theorem test_decode_regRead : decode 0x3000000600000000 = .ok (.regRead 0x006) := by rfl
theorem test_decode_poolRead8 : decode 0x40001C0000000000 = .ok (.poolRead8 0x1C00) := by rfl
theorem test_decode_poolRead16 : decode 0x4001040200000000 = .ok (.poolRead16 0x402) := by rfl
theorem test_decode_poolRead32 : decode 0x4002040400000000 = .ok (.poolRead32 0x404) := by rfl
theorem test_decode_poolReadSz3 : decode 0x4003040000000000 = .ok (.poolReadSz3 0x400) := by rfl
theorem test_decode_poolWrite8 : decode 0x5000040000000001 = .ok (.poolWrite8 0x400 1) := by rfl
theorem test_decode_poolWriteBadSz : decode 0x5001040000000000 = .ok (.poolWriteBadSz 1 0x400 0) := by rfl

/-- R127, V-REG-10. -/
theorem test_decode_refuses_reserved_kinds :
    decode 0x0000000000000000 = .error (.reservedKind 0) ∧ decode 0x6000000000000000 = .error (.reservedKind 6) ∧
    decode 0xF000000000000000 = .error (.reservedKind 15) := ⟨rfl, rfl, rfl⟩

/-- R128: T[59:33] of a FEED, C[31:16] and C[7:4] of a command, T[31:0] of a REG_READ are reserved and ignored. -/
theorem test_decode_ignores_reserved_bits :
    decode 0x1FFFFFFF00000010 = .ok (.feed true 0x10) ∧ decode 0x2FFFF000FFFF02F2 = .ok (.cmdConfigure 2) ∧
    decode 0x3FFFF00CFFFFFFFF = .ok (.regRead 0x00C) := ⟨rfl, rfl, rfl⟩

/-! ## States for the one-step tests -/

/-- A field of the next state, if there is one. -/
def after {α : Type} (r : Result) (f : State → α) : Option α :=
  match r with
  | .next s => some (f s)
  | .fault _ => none
  | .refused _ => none

/-- The producer's response as (err, rdata). -/
def producerAnswer (s : State) : Option (Nat × Nat) := s.producerResp.map fun r => (r.err.code, r.rdata.toNat)

/-- The consumer's response as (err, rdata). -/
def consumerAnswer (s : State) : Option (Nat × Nat) := s.consumerResp.map fun r => (r.err.code, r.rdata.toNat)

/-- desc{P=0xB, id=0x42, L=4, ds, F} of 95_test_vectors.md. -/
def syncSpec (mode : Mode) (frameLength : Half) : PatternSpec :=
  ⟨0x42, 0xB, 0, 4, 0, frameLength, 0, mode, false, 0, 0, 0⟩

/-- The standard set-up after FEEDS "101". -/
def huntState (spec : PatternSpec) : State := { State.reset with table := [spec], window := 5 }

/-- A frame of `spec` under way. -/
def frameState (spec : PatternSpec) (bits : Half) (phase : Fin 10) (half : Option Bool) : State :=
  { State.reset with
    table := [spec], mode := spec.dataState, act := some 0, bitCount := bits, subCount := bits, uartPhase := phase,
    half := half, rxTimeLatch := 3 }

/-- Slot 0 of 95_test_vectors.md section 2.6. -/
def poolState : State := { State.reset with pool := [(0x000, 0xA5), (0x400, 0x01), (0x401, 0x42), (0x404, 0x03)] }

/-- STAGE word 4 of descriptors 0 and 1, and word 5 of each. -/
def stagedState (word4 word4' : Word) : State :=
  { State.reset with sdesc := [(0, 0xB), (4, word4), (5, 8), (12, word4'), (13, 8)] }

/-! ## One step of each transaction -/

/-- V-COR-1: the fourth sync bit matches. -/
theorem test_feed_match :
    after (exec (.feed true 3) (huntState (syncSpec .dataRaw 8))) (fun s => (modeWord s.mode s.act, s.rxTimeLatch, s.window)) =
      some (0x00010001, 3, 0xB) := by decide +kernel

/-- V-RAW-1: the last bit of 0xA5 completes the frame, which is scheduled with the byte. -/
theorem test_feed_completes_raw :
    after (exec (.feed true 11) { frameState (syncSpec .dataRaw 8) 7 0 none with
        stage := Vector.replicate 1024 0xA4 }) (fun s => (s.mode, s.writeIndex, s.pub.map fun p => (p.slot, p.opcode, p.data[0]))) =
      some (.hunt, 1, some (0, 0x42, 0xA5)) := by decide +kernel

/-- V-REG-3. -/
theorem test_regWrite_stage :
    after (exec (.regWrite 0x104 0x12345678) State.reset) (fun s => (producerAnswer s, s.sdescWord 0 1)) =
      some (some (0, 0), 0x12345678) := by decide +kernel

/-- V-REG-1. -/
theorem test_regWrite_misaligned :
    after (exec (.regWrite 0x102 5) State.reset) (fun s => (producerAnswer s, s.sdesc)) = some (some (1, 0), []) := by
  decide +kernel

/-- V-CFG-15. -/
theorem test_nop : exec .cmdNop State.reset = .next { State.reset with producerResp := some ⟨.ok, 0⟩ } := by rfl

/-- V-SUB-5 and R340: FAULT and every `valid` are 0 after OPEN, `opcode` is kept. -/
theorem test_open :
    after (exec .cmdOpen { poolState with fault := true }) (fun s => (s.fault, s.slotValid 0, s.slotOpcode 0)) =
      some (false, 0, 0x42) := by decide +kernel

/-- V-CFG-1. -/
theorem test_configure_accepts :
    after (exec (.cmdConfigure 2) (stagedState 0x01000401 0x02000302)) (fun s => (cfgStatusWord s.cfgStatus, s.patCount, s.mode)) =
      some (0x00000001, 2, .hunt) := by decide +kernel

/-- V-CFG-3: the second descriptor has L = 200. -/
theorem test_configure_rejects :
    after (exec (.cmdConfigure 2) (stagedState 0x01000400 0x0100C800)) (fun s => (cfgStatusWord s.cfgStatus, s.patCount)) =
      some (0x00000122, 0) := by decide +kernel

/-- R289: op 3 sets CFG_STATUS to 3. -/
theorem test_illegal3 :
    after (exec .cmdIllegal3 State.reset) (fun s => (cfgStatusWord s.cfgStatus, producerAnswer s)) =
      some (0x00000003, some (0, 0)) := by decide +kernel

/-- V-CFG-10. -/
theorem test_illegal4To7 :
    after (exec (.cmdIllegal4To7 5) State.reset) (fun s => cfgStatusWord s.cfgStatus) = some 0x00000003 := by decide +kernel

/-- V-CFG-10b: the installed table is kept. -/
theorem test_illegal8ToF :
    after (exec (.cmdIllegal8ToF 0xF) (huntState (syncSpec .dataRaw 8))) (fun s => (cfgStatusWord s.cfgStatus, s.patCount)) =
      some (0x00000003, 1) := by decide +kernel

/-- V-REG-7: DATA_UART_8N1 with entry 2 active. -/
theorem test_regRead_mode :
    after (exec (.regRead 0x00C) { State.reset with mode := .dataUart8N1, act := some 2 }) producerAnswer =
      some (some (0, 0x00010202)) := by decide +kernel

/-- V-BIP-3, V-REG-8: PHASE with a half-bit of 1 held. -/
theorem test_regRead_phase :
    after (exec (.regRead 0x01C) (frameState (syncSpec .dataBiphaseS 5) 1 0 (some true))) producerAnswer =
      some (some (0, 0x00000300)) := by decide +kernel

/-- V-POOL-6, and V-POOL-10 for a reserved offset. -/
theorem test_poolRead8 :
    after (exec (.poolRead8 0x000) poolState) consumerAnswer = some (some (0, 0xA5)) ∧
    after (exec (.poolRead8 0x7FF) poolState) consumerAnswer = some (some (0, 0)) := by decide +kernel

/-- V-POOL-7, and the low half of V-POOL-1. -/
theorem test_poolRead16 :
    after (exec (.poolRead16 0x401) poolState) consumerAnswer = some (some (2, 0)) ∧
    after (exec (.poolRead16 0x400) poolState) consumerAnswer = some (some (0, 0x4201)) := by decide +kernel

/-- V-POOL-1, V-POOL-5. -/
theorem test_poolRead32 :
    after (exec (.poolRead32 0x400) poolState) consumerAnswer = some (some (0, 0x00004201)) ∧
    after (exec (.poolRead32 0x404) poolState) consumerAnswer = some (some (0, 0x00000003)) := by decide +kernel

/-- V-POOL-9. -/
theorem test_poolReadSz3 : after (exec (.poolReadSz3 0x400) poolState) consumerAnswer = some (some (2, 0)) := by
  decide +kernel

/-- V-POOL-15: CLEAR 0 clears `valid` and nothing else. -/
theorem test_poolWrite8_clear :
    after (exec (.poolWrite8 0x400 0) poolState) (fun s => (consumerAnswer s, s.pool)) =
      some (some (0, 0), [(0x000, 0xA5), (0x401, 0x42), (0x404, 0x03)]) := by decide +kernel

/-- V-POOL-13, V-POOL-14. -/
theorem test_poolWrite8_ignored :
    after (exec (.poolWrite8 0x400 1) poolState) (fun s => s.pool) = some poolState.pool ∧
    after (exec (.poolWrite8 0x401 0) poolState) (fun s => s.pool) = some poolState.pool := by decide +kernel

/-- V-POOL-12. -/
theorem test_poolWriteBadSz :
    after (exec (.poolWriteBadSz 1 0x400 0) poolState) (fun s => (consumerAnswer s, s.slotValid 0)) =
      some (some (2, 0), 1) := by decide +kernel

/-- The word presented by withFetchWord is what the next step runs, for a word of each interface. -/
theorem test_withFetchWord :
    after (step (State.reset.withFetchWord 64 0x2000000000000005)) (fun s => cfgStatusWord s.cfgStatus) = some 3 ∧
    after (step (poolState.withFetchWord 64 0x4002040000000000)) consumerAnswer = some (some (0, 0x4201)) := by
  decide +kernel

/-! ## Witnesses: for each obligation with hypotheses, states and operands that meet them -/

theorem witness_DecodeInvertsEncode :
    (Instr.cmdIllegal8ToF 0x8).wellFormed = true ∧ (Instr.regWrite 0xFFF 0xFFFFFFFF).wellFormed = true ∧
    (Instr.poolWriteBadSz 3 0x1FFF 0xFF).wellFormed = true := by decide

theorem witness_DecodePicksTheMostSpecificRow :
    decode 0x2000000000000007 = .ok (.cmdIllegal4To7 7) ∧ decode 0x5003000000000000 = .ok (.poolWriteBadSz 3 0 0) := ⟨rfl, rfl⟩

theorem witness_ReservedBits :
    decode 0x1000000100000010 = .ok (.feed true 0x10) ∧
    (0x1000000100000010 : TransWord) &&& usedBits (.feed true 0x10) =
      0x1FFFFFFF00000010 &&& usedBits (.feed true 0x10) ∧ (Instr.feed true 0x10).wellFormed = true := ⟨rfl, by decide, rfl⟩

/-- Both ends of the reserved kinds, presented to each agent. -/
theorem witness_ReservedKinds :
    ((0x0FFFFFFFFFFFFFFF : TransWord).extractLsb' 60 4 = 0x0 ∧ 6 ≤ ((0x6000000000000000 : TransWord).extractLsb' 60 4).toNat) ∧
    (({ State.reset with turns := [.producer 0], producerIn := [0x6000000000000000] } : State).turns = [.producer 0] ∧
      State.reset.pub = none) ∧
    ({ State.reset with turns := [.consumer], consumerIn := [0x0FFFFFFFFFFFFFFF] } : State).turns = [.consumer] := by
  refine ⟨⟨by decide, by decide⟩, ⟨rfl, rfl⟩, rfl⟩

/-- One state for each clause: a producer word, a consumer word, and agents with no word. -/
theorem witness_StepRuns :
    (∃ s : State, s.turns = .producer 7 :: [] ∧ s.pub = none ∧ s.producerIn = 0x2000000000000001 :: [] ∧
      decode 0x2000000000000001 = .ok .cmdOpen ∧ Instr.cmdOpen.agent = .producer) ∧
    (∃ s : State, s.turns = .consumer :: [] ∧ s.consumerIn = 0x4002040000000000 :: [] ∧
      decode 0x4002040000000000 = .ok (.poolRead32 0x400) ∧ (Instr.poolRead32 0x400).agent = .consumer) ∧
    (∃ s : State, s.turns = .producer 7 :: [] ∧ s.pub = none ∧ s.producerIn = []) ∧
    (∃ s : State, s.turns = .consumer :: [] ∧ s.consumerIn = []) ∧ State.reset.turns = [] :=
  ⟨⟨{ State.reset with turns := [.producer 7], producerIn := [0x2000000000000001] }, rfl, rfl, rfl, rfl, rfl⟩,
    ⟨{ State.reset with turns := [.consumer], consumerIn := [0x4002040000000000] }, rfl, rfl, rfl, rfl⟩,
    ⟨{ State.reset with turns := [.producer 7] }, rfl, rfl, rfl⟩, ⟨{ State.reset with turns := [.consumer] }, rfl, rfl⟩, rfl⟩

/-- A publish into slot 3 of a frame with opcode 0x42. -/
def record (checked : Bool) (pending : List FieldWrite) : Publish :=
  ⟨3, 0x42, 0x1234, 0xDEADBEEF, Vector.replicate 1024 0x5A, checked, pending⟩

/-- A state with that publish pending, slot 3 unread, and a producer turn next. -/
def publishState (p : Publish) : State :=
  { State.reset with pool := [(0x1C00, 0x01)], pub := some p, turns := [.producer 9, .consumer] }

theorem witness_PendingPublish :
    (publishState (record false allFieldWrites)).pub = some (record false allFieldWrites) ∧
    (publishState (record false allFieldWrites)).turns = .producer 9 :: [.consumer] ∧ (Instr.feed true 0).agent = .producer :=
  ⟨rfl, rfl, rfl⟩

theorem witness_ConsumerNeverWaits :
    ∃ s : State, s.turns = .consumer :: [] ∧ s.consumerIn = 0x5000040000000000 :: [] ∧
      decode 0x5000040000000000 = .ok (.poolWrite8 0x400 0) ∧ (Instr.poolWrite8 0x400 0).agent = .consumer :=
  ⟨{ publishState (record true []) with turns := [.consumer], consumerIn := [0x5000040000000000] }, rfl, rfl, rfl, rfl⟩

theorem witness_HammingDistance :
    ({ syncSpec .dataRaw 8 with lengthBits := 128 } : PatternSpec).lengthBits.toNat ≤ winBits ∧
    ({ syncSpec .dataRaw 8 with lengthBits := 0 } : PatternSpec).lengthBits.toNat ≤ winBits := by decide

/-- V-COR-1 after FEEDS "10": the third bit leaves distance 3. -/
theorem witness_FeedWithoutMatch :
    ∃ s : State, s.pub = none ∧ s.mode = .hunt ∧ (∃ w, IsShift s.window true w ∧
      ∀ spec ∈ s.table, spec.maxHammingDistance.toNat < hammingDistance spec w) ∧ s.table ≠ [] :=
  ⟨{ huntState (syncSpec .dataRaw 8) with window := 2 }, rfl, rfl, ⟨_, shiftWindow_isShift true _, by
    intro spec h
    simp only [huntState, List.mem_singleton] at h
    subst h
    decide +kernel⟩, by simp [huntState]⟩

/-- Two entries, of which the second is the first that matches 1011. -/
def twoEntries (frameLength : Half) : State :=
  { huntState (syncSpec .dataRaw 8) with
    table := [{ syncSpec .dataRaw 8 with p0 := 0xA }, syncSpec .dataUart8N1 frameLength] }

theorem witness_FirstMatch :
    (twoEntries 8).pub = none ∧ (twoEntries 8).mode = .hunt ∧ (twoEntries 8).table[1]? = some (syncSpec .dataUart8N1 8) ∧
    (∃ w, IsShift (twoEntries 8).window true w ∧
      hammingDistance (syncSpec .dataUart8N1 8) w ≤ (syncSpec .dataUart8N1 8).maxHammingDistance.toNat ∧
      ∀ j q, j < 1 → (twoEntries 8).table[j]? = some q → q.maxHammingDistance.toNat < hammingDistance q w) ∧
    (syncSpec .dataUart8N1 8).frameLengthBits ≠ 0 := by
  refine ⟨rfl, rfl, rfl, ⟨_, shiftWindow_isShift true _, by decide +kernel, ?_⟩, by decide⟩
  intro j q hj hq
  obtain rfl : j = 0 := by omega
  cases hq
  decide +kernel

theorem witness_ZeroLengthFrame :
    (twoEntries 0).pub = none ∧ (twoEntries 0).mode = .hunt ∧ (twoEntries 0).table[1]? = some (syncSpec .dataUart8N1 0) ∧
    (∃ w, IsShift (twoEntries 0).window true w ∧
      hammingDistance (syncSpec .dataUart8N1 0) w ≤ (syncSpec .dataUart8N1 0).maxHammingDistance.toNat ∧
      ∀ j q, j < 1 → (twoEntries 0).table[j]? = some q → q.maxHammingDistance.toNat < hammingDistance q w) ∧
    (syncSpec .dataUart8N1 0).frameLengthBits = 0 := by
  refine ⟨rfl, rfl, rfl, ⟨_, shiftWindow_isShift true _, by decide +kernel, ?_⟩, by decide⟩
  intro j q hj hq
  obtain rfl : j = 0 := by omega
  cases hq
  decide +kernel

/-- The frame states meet R52's first invariant, in each mode. -/
theorem frameState_active (spec : PatternSpec) (bits : Half) (phase : Fin 10) (half : Option Bool) (h : spec.dataState ≠ .hunt) :
    (frameState spec bits phase half).ActiveInv := by
  refine ⟨⟨fun _ => by simp [frameState], fun _ => h⟩, ?_⟩
  intro i hi
  cases hi
  exact ⟨spec, rfl, rfl⟩

theorem witness_FeedCompletes :
    State.reset.pub = none ∧ (frameState (syncSpec .dataRaw 8) 7 0 none).ActiveInv ∧
    (frameState (syncSpec .dataUart8N1 8) 7 8 none).ActiveInv ∧
    (frameState (syncSpec .dataBiphaseS 8) 7 0 (some true)).ActiveInv ∧ State.reset.ActiveInv := by
  refine ⟨rfl, frameState_active _ _ _ _ (by decide), frameState_active _ _ _ _ (by decide),
    frameState_active _ _ _ _ (by decide), by simp [State.reset], ?_⟩
  intro i h
  cases h

theorem witness_FeedWithoutAnActivePattern :
    ∃ s : State, s.pub = none ∧ s.mode ≠ .hunt ∧ s.activeSpec = none :=
  ⟨{ State.reset with mode := .dataRaw, act := some 0 }, rfl, by decide, rfl⟩

/-- The state of a frame with no publish pending, its entry and its window. -/
theorem witness_frame (spec : PatternSpec) (bits : Half) (phase : Fin 10) (half : Option Bool) (b : Bool) :
    (frameState spec bits phase half).pub = none ∧ (frameState spec bits phase half).mode = spec.dataState ∧
    (frameState spec bits phase half).activeSpec = some spec ∧
    ∃ w, IsShift (frameState spec bits phase half).window b w :=
  ⟨rfl, rfl, rfl, _, shiftWindow_isShift b _⟩

/-- A bit in the middle of a frame, and its last. -/
theorem witness_RawFeed :
    (frameState (syncSpec .dataRaw 8) 3 0 none).mode = .dataRaw ∧
    (frameState (syncSpec .dataRaw 8) 3 0 none).bitCount + 1 ≠ (syncSpec .dataRaw 8).frameLengthBits ∧
    (frameState (syncSpec .dataRaw 8) 7 0 none).bitCount + 1 = (syncSpec .dataRaw 8).frameLengthBits := by decide +kernel

theorem witness_UartStartBit :
    (frameState (syncSpec .dataUart8N1 8) 0 0 none).mode = .dataUart8N1 ∧
    (frameState (syncSpec .dataUart8N1 8) 0 0 none).uartPhase = 0 := by decide +kernel

/-- The first data bit and the last, a bit below `frameLengthBits` and one at it. -/
theorem witness_UartDataBit :
    (∃ phase : Fin 10, 1 ≤ (frameState (syncSpec .dataUart8N1 4) 0 1 none).uartPhase.val ∧
      phase.val = (frameState (syncSpec .dataUart8N1 4) 0 1 none).uartPhase.val + 1 ∧
      (frameState (syncSpec .dataUart8N1 4) 0 1 none).bitCount.toNat < (syncSpec .dataUart8N1 4).frameLengthBits.toNat) ∧
    ∃ phase : Fin 10, (frameState (syncSpec .dataUart8N1 4) 7 8 none).uartPhase.val ≤ 8 ∧
      phase.val = (frameState (syncSpec .dataUart8N1 4) 7 8 none).uartPhase.val + 1 ∧
      (syncSpec .dataUart8N1 4).frameLengthBits.toNat ≤ (frameState (syncSpec .dataUart8N1 4) 7 8 none).bitCount.toNat :=
  ⟨⟨2, by decide +kernel⟩, ⟨9, by decide +kernel⟩⟩

/-- The stop bit of a character that is not the last, and of the last (`bitCount` equal to `frameLengthBits`). -/
theorem witness_UartStopBit :
    (frameState (syncSpec .dataUart8N1 9) 8 9 none).uartPhase = 9 ∧
    (frameState (syncSpec .dataUart8N1 9) 8 9 none).bitCount.toNat < (syncSpec .dataUart8N1 9).frameLengthBits.toNat ∧
    (syncSpec .dataUart8N1 8).frameLengthBits.toNat ≤ (frameState (syncSpec .dataUart8N1 8) 8 9 none).bitCount.toNat := by
  decide +kernel

theorem witness_BiphaseFeed :
    (frameState (syncSpec .dataBiphaseS 5) 0 0 none).half = none ∧
    (frameState (syncSpec .dataBiphaseS 5) 0 0 (some true)).half = some true ∧
    (frameState (syncSpec .dataBiphaseS 5) 0 0 (some true)).bitCount + 1 ≠ (syncSpec .dataBiphaseS 5).frameLengthBits ∧
    (frameState (syncSpec .dataBiphaseS 5) 4 0 (some true)).bitCount + 1 = (syncSpec .dataBiphaseS 5).frameLengthBits := by
  decide +kernel

/-- A frame of eight bits in the last byte of the buffer. -/
def lastByteSpec (mode : Mode) : PatternSpec := { syncSpec mode 8 with startOffset := 1023 }

/-- Such a frame has just started. -/
def freshState (mode : Mode) : State := { frameState (lastByteSpec mode) 0 0 none with base := 1023 }

theorem witness_FreshFrame :
    FreshFrame (freshState .dataRaw) 0 (lastByteSpec .dataRaw) .dataRaw ∧
    FreshFrame (freshState .dataUart8N1) 0 (lastByteSpec .dataUart8N1) .dataUart8N1 ∧
    FreshFrame (freshState .dataBiphaseS) 0 (lastByteSpec .dataBiphaseS) .dataBiphaseS := by
  have h (mode : Mode) : FreshFrame (freshState mode) 0 (lastByteSpec mode) mode :=
    ⟨rfl, rfl, rfl, rfl, rfl, rfl, rfl, rfl, rfl, by cases mode <;> decide, by cases mode <;> decide⟩
  exact ⟨h _, h _, h _⟩

/-- FEEDs of such a frame: seven of its eight bits, or all; its entry has no sub-blocks and hook 0. -/
theorem witness_RawFrame :
    (List.replicate 7 (true, (5 : Word))).length < (lastByteSpec .dataRaw).frameLengthBits.toNat ∧
    (List.replicate 8 (true, (5 : Word))).length = (lastByteSpec .dataRaw).frameLengthBits.toNat ∧
    (lastByteSpec .dataRaw).subBlockBits = 0 ∧ (lastByteSpec .dataRaw).postProcess = 0 := by decide

/-- One UART character (0xA5, V-UART-1), the whole frame; without its stop bit the list is one FEED shorter. -/
theorem witness_UartFrame :
    ∃ (chars : List (Bool × List Bool × Bool)) (feeds : List (Bool × Word)), (∀ c ∈ chars, c.2.1.length = 8) ∧
      feeds.map Prod.fst = chars.flatMap (fun c => uartCharacter c.1 c.2.1 c.2.2) ∧
      feeds.length = 10 * (((lastByteSpec .dataUart8N1).frameLengthBits.toNat + 7) / 8) ∧
      feeds.dropLast.length < 10 * (((lastByteSpec .dataUart8N1).frameLengthBits.toNat + 7) / 8) ∧
      (lastByteSpec .dataUart8N1).subBlockBits = 0 ∧ (lastByteSpec .dataUart8N1).postProcess = 0 :=
  ⟨[(false, [true, false, true, false, false, true, false, true], true)],
    [false, true, false, true, false, false, true, false, true, true].map fun b => (b, 0), by decide, rfl, rfl, by decide, rfl,
    rfl⟩

/-- Eight biphase bits at a free level, the whole frame; without the last half-bit the list is one FEED shorter. -/
theorem witness_BiphaseFrame :
    ∃ (pairs : List (Bool × Bool)) (feeds : List (Bool × Word)),
      feeds.map Prod.fst = pairs.flatMap (fun p => biphasePair p.1 p.2) ∧
      feeds.length = 2 * (lastByteSpec .dataBiphaseS).frameLengthBits.toNat ∧
      feeds.dropLast.length < 2 * (lastByteSpec .dataBiphaseS).frameLengthBits.toNat ∧
      (lastByteSpec .dataBiphaseS).subBlockBits = 0 ∧ (lastByteSpec .dataBiphaseS).postProcess = 0 :=
  ⟨List.replicate 8 (true, true), (List.replicate 8 [(true, 0), (false, 0)]).flatten, rfl, rfl, by decide, rfl, rfl⟩

theorem witness_OverrunCheck :
    (publishState (record false allFieldWrites)).pub = some (record false allFieldWrites) ∧
    (record false allFieldWrites).checked = false ∧ (publishState (record false allFieldWrites)).turns = .producer 9 :: [.consumer] ∧
    (publishState (record false allFieldWrites)).slotValid 3 = 1 := ⟨rfl, rfl, rfl, by decide⟩

theorem witness_FieldWrites :
    (publishState (record true [.param, .data 1023])).pub = some (record true [.param, .data 1023]) ∧
    (record true [.param, .data 1023]).checked = true ∧ (record true [.param, .data 1023]).pending ≠ [] ∧
    (record true [.param, .data 1023]).pending.Nodup ∧
    (publishState (record true [.param, .data 1023])).turns = .producer 9 :: [.consumer] :=
  ⟨rfl, rfl, by simp [record], by simp [record], rfl⟩

theorem witness_ValidIsLast :
    (publishState (record true [])).pub = some (record true []) ∧ (record true []).checked = true ∧
    (record true []).pending = [] ∧ (publishState (record true [])).turns = .producer 9 :: [.consumer] := ⟨rfl, rfl, rfl, rfl⟩

theorem witness_Publish1029 :
    ∃ (s : State) (picks : List Nat), s.pub = some (record false allFieldWrites) ∧
      CompleteW (record false allFieldWrites).pending ∧ picks.length = 1029 ∧ s.turns = picks.map Turn.producer ++ [] :=
  ⟨{ publishState (record false allFieldWrites) with turns := (List.replicate 1029 5).map Turn.producer ++ [] },
    List.replicate 1029 5, rfl, allFieldWrites_complete, List.length_replicate, rfl⟩

/-- A step that changes a field of slot 3, and one that sets its `valid`. -/
theorem witness_OnlyAPublishWrites :
    (∃ u, step (publishState (record true [.opcode])) = .next u ∧
      u.slotOpcode 3 ≠ (publishState (record true [.opcode])).slotOpcode 3) ∧
    ∃ u, step { publishState (record true []) with pool := [] } = .next u ∧ u.slotValid 3 = 1 :=
  ⟨⟨_, rfl, by decide +kernel⟩, ⟨_, rfl, by decide +kernel⟩⟩

theorem witness_TornRead :
    ∃ (s : State) (p : Publish), s.pub = some p ∧ p.checked = true ∧ FieldWrite.rxTime ∈ p.pending ∧
      s.consumerIn = [encode (.poolRead32 (BitVec.ofNat 13 (rxTimeAddr p.slot)))] ∧ s.slotRxTime p.slot ≠ p.rxTime :=
  ⟨{ publishState (record true [.rxTime]) with
      consumerIn := [encode (.poolRead32 (BitVec.ofNat 13 (rxTimeAddr 3)))] }, record true [.rxTime], rfl, rfl,
    by simp [record], rfl, by decide⟩

/-- Aligned at the first and the last address of each width. -/
theorem witness_PoolRead :
    (0x1FFF : BitVec 13).toNat % 1 = 0 ∧ (0x1FFE : BitVec 13).toNat % 2 = 0 ∧ (0x1FFC : BitVec 13).toNat % 4 = 0 ∧
    (0x0000 : BitVec 13).toNat % 4 = 0 := by decide

theorem witness_PoolAlignErrors :
    (0x401 : BitVec 13).toNat % 2 ≠ 0 ∧ (0x402 : BitVec 13).toNat % 4 ≠ 0 ∧ (3 : BitVec 2) ≠ 0 := by decide

theorem witness_PoolWrite :
    ((0x1C00 : BitVec 13).toNat % 0x800 = 0x400 ∧ (0 : Byte) = 0) ∧
    ¬ ((0x400 : BitVec 13).toNat % 0x800 = 0x400 ∧ (1 : Byte) = 0) ∧
    ¬ ((0x401 : BitVec 13).toNat % 0x800 = 0x400 ∧ (0 : Byte) = 0) := by decide

theorem witness_ConsumerSeesOnlyThePool :
    (Instr.poolRead8 0).agent = .consumer ∧
    ∀ a, poolState.pool.readByte a = ({ poolState with fault := true, mode := .dataRaw } : State).pool.readByte a :=
  ⟨rfl, fun _ => rfl⟩

/-- The first STAGE word and the last of NPAT_MAX = 16. -/
theorem witness_StageWrite :
    State.reset.pub = none ∧ State.reset.params.wf ∧ 0 < State.reset.params.npatMax ∧ 15 < State.reset.params.npatMax := by
  decide

/-- Read-only and reserved offsets: the lowest and highest below STAGE, and the lowest and highest above it. -/
theorem witness_WritesToOtherRegisters :
    ([0x004#12, 0x0FC#12].all fun off => decide (off.toNat % 4 = 0 ∧ off ≠ 0 ∧ off.toNat < 0x100)) = true ∧
    ([0x300#12, 0xFFC#12].all fun off =>
      decide (off.toNat % 4 = 0 ∧ off ≠ 0 ∧ 0x100 + 0x20 * State.reset.params.npatMax ≤ off.toNat)) = true := by decide

theorem witness_MisalignedReg :
    State.reset.pub = none ∧ (0x001 : BitVec 12).toNat % 4 ≠ 0 ∧ (0xFFF : BitVec 12).toNat % 4 ≠ 0 := by decide

/-- The register reads ask for no pending publish alone. -/
theorem witness_ReadsAs : State.reset.pub = none := rfl

theorem witness_StageAndReservedOffsets :
    State.reset.pub = none ∧ State.reset.params.wf ∧ 15 < State.reset.params.npatMax ∧
    ([0x044#12, 0x0FC#12].all fun off => decide (off.toNat % 4 = 0 ∧ 0x044 ≤ off.toNat ∧ off.toNat < 0x100)) = true ∧
    ([0x300#12, 0xFFC#12].all fun off =>
      decide (off.toNat % 4 = 0 ∧ 0x100 + 0x20 * State.reset.params.npatMax ≤ off.toNat)) = true := by decide

/-- A word for each command, every free bit set: NOP, OPEN, CONFIGURE 255, and both ends of each reserved row. -/
theorem witness_RegWriteToCmd :
    ([0x2FFFF000FFFFFFF0#64, 0x2FFFF000FFFFFFF1#64, 0x2FFFF000FFFFFFF2#64, 0x2FFFF000FFFFFFF3#64, 0x2FFFF000FFFFFFF4#64,
        0x2FFFF000FFFFFFF7#64, 0x2FFFF000FFFFFFF8#64, 0x2FFFF000FFFFFFFF#64].all fun w =>
      decide (w.extractLsb' 60 4 = 0x2 ∧ w.extractLsb' 32 12 = 0x000)) = true ∧
    (0x2FFFF000FFFFFFF0#64).toNat % 16 = 0x0 ∧ (0x2FFFF000FFFFFFF1#64).toNat % 16 = 0x1 ∧
    ((0x2FFFF000FFFFFFF2#64).toNat % 16 = 0x2 ∧ (0xFF : Byte).toNat = (0x2FFFF000FFFFFFF2#64).toNat / 2 ^ 8 % 2 ^ 8) ∧
    (0x2FFFF000FFFFFFF3#64).toNat % 16 = 0x3 ∧ (0x4 : BitVec 4).toNat = (0x2FFFF000FFFFFFF4#64).toNat % 16 ∧
    (0x7 : BitVec 4).toNat = (0x2FFFF000FFFFFFF7#64).toNat % 16 ∧ (0x8 : BitVec 4).toNat = (0x2FFFF000FFFFFFF8#64).toNat % 16 ∧
    (0xF : BitVec 4).toNat = (0x2FFFF000FFFFFFFF#64).toNat % 16 ∧
    decode 0x2FFFF000FFFFFFF7 = .ok (.cmdIllegal4To7 7) :=
  ⟨by decide, by decide, by decide, by decide, by decide, by decide, by decide, by decide, by decide, rfl⟩

theorem witness_Commands : State.reset.pub = none ∧ poolState.pub = none := ⟨rfl, rfl⟩

theorem witness_CountTooLarge : State.reset.params.npatMax < (17 : Byte).toNat ∧ (0 : Byte) = 0 := by decide

/-- V-CFG-3: descriptor 1 is the first that fails; its length is 200. -/
theorem witness_FirstFailing :
    (stagedState 0x01000400 0x0100C800).pub = none ∧
    (2 : Byte).toNat ≤ (stagedState 0x01000400 0x0100C800).params.npatMax ∧ 1 < (2 : Byte).toNat ∧ (1 : Byte).toNat = 1 ∧
    firstFailingCheck (decodeDescriptor ((stagedState 0x01000400 0x0100C800).sdescWord 1)) ≠ .none ∧
    (decodeDescriptor ((stagedState 0x01000400 0x0100C800).sdescWord 1)).lengthBits = 200 ∧
    ∀ j, j < 1 → firstFailingCheck (decodeDescriptor ((stagedState 0x01000400 0x0100C800).sdescWord j)) = .none := by
  decide +kernel

/-- V-CFG-1: both descriptors pass. -/
theorem witness_PassingTable :
    (stagedState 0x01000401 0x02000302).pub = none ∧
    (2 : Byte).toNat ≤ (stagedState 0x01000401 0x02000302).params.npatMax ∧
    ∀ j, j < (2 : Byte).toNat →
      firstFailingCheck (decodeDescriptor ((stagedState 0x01000401 0x02000302).sdescWord j)) = .none := by decide +kernel

/-- For each check of R279, a descriptor that fails at its boundary, and the last value that passes it (V-CFG-11 to V-CFG-13). -/
theorem witness_Checks :
    (128 < (129 : Byte).toNat ∧ (128 : Byte).toNat ≤ 128) ∧
    (1024 < (1016 : Half).toNat + ((65 : Half).toNat + 7) / 8 ∧ (1016 : Half).toNat + ((64 : Half).toNat + 7) / 8 ≤ 1024) ∧
    (0 < (9 : Half).toNat ∧ (1 : Half).toNat ≠ ((9 : Half).toNat + 7) / 8) ∧ Mode.hunt.code = 0 ∧ Mode.dataRaw.code ≠ 0 := by
  decide

/-- A match, a completion, OPEN and CONFIGURE, each of which changes the mode. -/
theorem witness_ModeChanges :
    after (exec (.feed true 3) (huntState (syncSpec .dataRaw 8))) (fun s => s.mode) = some .dataRaw ∧
    after (exec (.feed true 3) (frameState (syncSpec .dataRaw 8) 7 0 none)) (fun s => s.mode) = some .hunt ∧
    after (exec .cmdOpen (frameState (syncSpec .dataRaw 8) 7 0 none)) (fun s => s.mode) = some .hunt ∧
    after (exec (.cmdConfigure 0) (frameState (syncSpec .dataRaw 8) 7 0 none)) (fun s => s.mode) = some .hunt := by
  decide +kernel

/-- OPEN empties the table and clears FAULT; an accepted CONFIGURE changes the table. -/
theorem witness_TableChanges :
    after (exec .cmdOpen { huntState (syncSpec .dataRaw 8) with fault := true }) (fun s => (s.table, s.fault)) = some ([], false) ∧
    after (exec (.cmdConfigure 0) (huntState (syncSpec .dataRaw 8))) (fun s => s.table) = some [] := by decide +kernel

/-- A frame of eight RAW bits, seven of them placed, meets the engine's invariant. -/
theorem witness_EngineInv : (frameState (syncSpec .dataRaw 8) 7 0 none).EngineInv := by
  have ha : (frameState (syncSpec .dataRaw 8) 7 0 none).activeSpec = some (syncSpec .dataRaw 8) := rfl
  refine ⟨frameState_active _ _ _ _ (by decide), (by intro h; cases h), ⟨by decide, by decide, ?_⟩, ?_, ?_⟩
  · intro spec h
    have h : spec ∈ [syncSpec .dataRaw 8] := h
    rw [List.mem_singleton.1 h]
    decide
  · intro spec h
    rw [ha] at h
    cases h
    exact ⟨fun _ => by decide, fun h => (by cases h)⟩
  · intro spec h
    rw [ha] at h
    cases h
    exact ⟨fun _ => ⟨rfl, by decide⟩, fun h => absurd rfl h⟩

/-- A step from that state: it takes the frame's last bit. -/
theorem witness_EngineStep :
    ∃ s u : State, s.EngineInv ∧ step s = .next u ∧ u.mode ≠ s.mode := by
  have h : State.EngineInv
      { frameState (syncSpec .dataRaw 8) 7 0 none with turns := [.producer 0], producerIn := [0x1000000100000010] } :=
    ⟨witness_EngineInv.active, witness_EngineInv.hunt, witness_EngineInv.table, witness_EngineInv.bitCount,
      witness_EngineInv.place⟩
  exact ⟨_, _, h, rfl, by decide +kernel⟩

/-- A slot that holds a frame, a staged descriptor, a publish under way. -/
theorem witness_StorageInvariants :
    ∃ s u : State, s.PoolInv ∧ s.StageInv ∧ s.PublishInv ∧ s.params.wf ∧ step s = .next u ∧ s.slotValid 0 = 1 := by
  refine ⟨{ poolState with
      sdesc := [(127, 5)], pub := some (record true [.param, .data 1023]), turns := [.producer 1] }, _,
    ⟨by decide, by decide, by decide⟩, ⟨by decide, by decide⟩, ?_, by decide, rfl, by decide⟩
  intro p hp
  cases hp
  exact ⟨by simp [record], by simp [record]⟩

end Sys2Proof.Tests
end

