-- ==== Sys2Proof/Proofs/StateRules.lean ====
section
/-! SUPPORT. Proofs about the state (10_state.md): the reset values (R80), and what changes `mode` (R33). -/

namespace Sys2Proof.Machine

/-! ### Reset values (R80, R340, R341) -/

/-- A response is no element with a reset value. -/
theorem State.HasResetValues.respond {s : State} (h : s.HasResetValues) (a : Agent) (r : Response) :
    (respond a r s).HasResetValues := by
  cases a <;> exact h

theorem reset_hasResetValues : State.reset.HasResetValues := by
  simp [State.HasResetValues, State.reset, State.slotValid, Memory.readByte, Memory.unlisted, State.patCount,
    State.sdescWord, cellsRead]

@[simp] theorem machineReset_slotValid (s : State) (k : Fin poolSlots) : (machineReset s).slotValid k = 0 := by
  rw [State.slotValid, machineReset_pool, clearAllValid_readByte, if_pos ⟨k, rfl⟩]

theorem machineReset_hasResetValues (s : State) (hp : s.pub = none) : (machineReset s).HasResetValues := by
  simp [State.HasResetValues, machineReset_slotValid, State.patCount, State.sdescWord, cellsRead, hp]

/-- R340: reset writes no byte of POOL but the `valid` bytes. -/
theorem machineReset_readByte (s : State) (a : Nat) (ha : ∀ k, a ≠ validAddr k) :
    (machineReset s).pool.readByte a = s.pool.readByte a := by
  rw [machineReset_pool, clearAllValid_readByte, if_neg (not_exists.2 ha)]

/-- OPEN with no publish pending (R277). -/
theorem exec_cmdOpen (s : State) (hp : s.pub = none) :
    exec .cmdOpen s = .next (respond .producer okResponse (machineReset s)) :=
  runCommand_none machineReset s hp

/-! ### What changes `mode` (R33) -/

/-- R166, R165, R167: the compare finds nothing, or an installed entry within its tolerance, whose frame starts and, if it has
length 0, completes at once. -/
theorem huntStep_cases (t : Word) (s : State) :
    huntStep t s = s ∨ ∃ j spec, s.table[j]? = some spec ∧ patternMatches spec s.window = true ∧
      (huntStep t s = startFrame j spec t s ∨ huntStep t s = completeFrame spec (startFrame j spec t s)) := by
  unfold huntStep
  split
  · rename_i j spec hf
    obtain ⟨-, hj, hm, -⟩ := (findMatch_some _ _ _ _ _).1 hf
    refine .inr ⟨j, spec, hj, hm, ?_⟩
    unfold matchPattern
    split
    · exact .inr rfl
    · exact .inl rfl
  · exact .inl rfl

/-- What the collector makes of `mode` on the way from s to u: a frame of the entry completes, or `mode` is as before. -/
def CompletesOrKeepsMode (spec : PatternSpec) (s u : State) : Prop :=
  (∃ t, u = completeFrame spec t) ∨ u.mode = s.mode

theorem completeIfFull_completesOrKeepsMode (spec : PatternSpec) (s : State) :
    CompletesOrKeepsMode spec s (completeIfFull spec s) := by
  unfold completeIfFull
  split
  · exact .inl ⟨_, rfl⟩
  · exact .inr rfl

@[simp] theorem uartData_mode (spec : PatternSpec) (b : Bool) (s : State) : (uartData spec b s).mode = s.mode := by
  unfold uartData
  split <;> rfl

theorem uartStop_completesOrKeepsMode (spec : PatternSpec) (b : Bool) (s : State) :
    CompletesOrKeepsMode spec s (uartStop spec b s) := by
  unfold uartStop
  dsimp only
  split
  · exact .inl ⟨_, rfl⟩
  · exact .inr rfl

theorem uartStep_completesOrKeepsMode (spec : PatternSpec) (b : Bool) (s : State) :
    CompletesOrKeepsMode spec s (uartStep spec b s) := by
  unfold uartStep
  split
  · exact .inr rfl
  · split
    · exact .inr (uartData_mode spec b s)
    · exact uartStop_completesOrKeepsMode spec b s

theorem biphaseStep_completesOrKeepsMode (spec : PatternSpec) (b : Bool) (s : State) :
    CompletesOrKeepsMode spec s (biphaseStep spec b s) := by
  unfold biphaseStep
  split
  · exact .inr rfl
  · exact completeIfFull_completesOrKeepsMode spec (countBit (putBit spec _ { s with half := none }))

theorem collect_completesOrKeepsMode (spec : PatternSpec) (b : Bool) (s : State) :
    CompletesOrKeepsMode spec s (collect spec b s) := by
  unfold collect
  split
  · exact .inr rfl
  · exact completeIfFull_completesOrKeepsMode spec (countBit (putBit spec b s))
  · exact uartStep_completesOrKeepsMode spec b s
  · exact biphaseStep_completesOrKeepsMode spec b s

/-- A completed frame schedules a publish with every field write pending (R220, R240). -/
theorem completeFrame_pub_complete (spec : PatternSpec) (s : State) :
    ∃ p, (completeFrame spec s).pub = some p ∧ CompleteW p.pending :=
  ⟨_, completeFrame_pub s spec, allFieldWrites_complete⟩

@[simp] theorem publishEvent_mode (k : Nat) (p : Publish) (s : State) : (publishEvent k p s).mode = s.mode := by
  rw [publishEvent_frame]

/-- A FEED that changes `mode` matched (R165) or completed a frame (R222). -/
theorem exec_feed_mode (s u : State) (b : Bool) (t : Word) (hp : s.pub = none) (h : exec (.feed b t) s = .next u)
    (hm : u.mode ≠ s.mode) :
    (s.mode = .hunt ∧ ∃ j spec, u.act = some j ∧ s.table[j]? = some spec ∧ u.mode = spec.dataState ∧
      hammingDistance spec u.window ≤ spec.maxHammingDistance.toNat) ∨
    (s.mode ≠ .hunt ∧ u.mode = .hunt ∧ ∃ p, u.pub = some p ∧ CompleteW p.pending) := by
  rcases exec_feed_cases s u b t hp h with ⟨hs, rfl⟩ | ⟨hs, spec, -, rfl⟩
  · rw [respond_mode] at hm
    rcases huntStep_cases t (shiftWindow b s) with he | ⟨j, spec, hj, hd, he | he⟩
    · rw [he] at hm
      exact absurd rfl hm
    · simp only [he, respond_act, respond_mode, respond_window]
      exact .inl ⟨hs, j, spec, rfl, hj, rfl, of_decide_eq_true hd⟩
    · rw [he] at hm
      exact absurd hs.symm hm
  · rw [respond_mode] at hm
    rcases collect_completesOrKeepsMode spec b (shiftWindow b s) with ⟨x, he⟩ | he
    · simp only [he, respond_mode, respond_pub]
      exact .inr ⟨hs, rfl, completeFrame_pub_complete spec x⟩
    · exact absurd he hm

/-- A CONFIGURE that changes `mode` reports ACCEPTED (R286, R287). -/
theorem configure_mode (count : Byte) (s : State) (hm : (configure count s).mode ≠ s.mode) :
    (configure count s).cfgStatus.result = .accepted := by
  rcases configure_cases count s with ⟨cause, entry, -, he⟩ | ⟨-, -, he⟩
  · rw [he] at hm
    exact absurd rfl hm
  · rw [he, acceptConfig_cfgStatus]

/-- A producer transaction other than FEED that changes `mode` is an OPEN or a CONFIGURE that reports ACCEPTED. -/
theorem exec_producer_mode (i : Instr) (s u : State) (hi : i.agent = .producer) (hp : s.pub = none)
    (h : exec i s = .next u) (hw : i.wellFormed = true) (hm : u.mode ≠ s.mode) :
    (∃ b t, i = .feed b t) ∨ i = .cmdOpen ∨ ∃ count, i = .cmdConfigure count ∧ u.cfgStatus.result = .accepted := by
  rcases exec_producer i s u hi hp h with hf | ⟨r, x, rfl, hc⟩
  · exact .inl hf
  · rw [respond_mode] at hm
    rcases hc with ⟨off, v, -, -, rfl | ⟨j, w, -, -, rfl⟩⟩ | ⟨v, rfl, -⟩ | ⟨rfl, -⟩ | ⟨count, rfl, rfl⟩ | rfl | rfl
    · exact absurd rfl hm
    · exact absurd rfl hm
    · exact absurd hw Bool.false_ne_true
    · exact .inr (.inl rfl)
    · refine .inr (.inr ⟨count, rfl, ?_⟩)
      rw [respond_cfgStatus]
      exact configure_mode count s hm
    · exact absurd rfl hm
    · exact absurd rfl hm

/-- Only a producer transaction with no publish pending changes `mode`. -/
theorem exec_mode_producer_free (i : Instr) (s u : State) (h : exec i s = .next u) (hm : u.mode ≠ s.mode) :
    i.agent = .producer ∧ s.pub = none := by
  cases hi : i.agent with
  | producer =>
    cases hp : s.pub with
    | none => exact ⟨rfl, rfl⟩
    | some p =>
      rw [exec_held i s p hp hi] at h
      cases h
      exact absurd (publishEvent_mode _ p s) hm
  | consumer =>
    obtain ⟨m, r, he, -⟩ := exec_consumer i s hi
    rw [he] at h
    cases h
    exact absurd rfl hm

end Sys2Proof.Machine

open Sys2Proof Sys2Proof.Machine

/-- Settles O51: after power-on by the reset state's own fields, after OPEN by `machineReset`. -/
theorem resetValuesOfTheSpec : Obligations.ResetValuesOfTheSpec := by
  refine ⟨reset_hasResetValues, fun s hp => ⟨_, exec_cmdOpen s hp, ?_, fun a ha => ?_⟩⟩
  · exact (machineReset_hasResetValues s hp).respond .producer okResponse
  · rw [respond_pool]
    exact machineReset_readByte s a ha

/-- Settles O52: a transaction that changes `mode` is the producer's and is not held; the rest is a case split over what such a
transaction can do. -/
theorem modeChangesOnlyByFeedConfigureOpen : Obligations.ModeChangesOnlyByFeedConfigureOpen := by
  refine ⟨rfl, rfl, rfl, rfl, rfl, fun s u i h hw hm => ?_⟩
  obtain ⟨hi, hp⟩ := exec_mode_producer_free i s u h hm
  rcases exec_producer_mode i s u hi hp h hw hm with ⟨b, t, rfl⟩ | ho
  · exact .inl ⟨b, t, rfl, hp, exec_feed_mode s u b t hp h hm⟩
  · exact .inr ho
end

