-- ==== Sys2Proof/Proofs/PoolRules.lean ====
section
/-! SUPPORT. Proofs about POOL (20_memory.md): what a consumer's write can change (R102). -/

open Sys2Proof Sys2Proof.Machine

/-- Settles O33: the two cases of `execPoolWrite8_eq`, with the law of read after write for the byte that is cleared. -/
theorem poolWriteOnlyClearsValid : Obligations.PoolWriteOnlyClearsValid := by
  refine fun s addr v => ⟨fun hclear => ?_, fun hignored => ?_⟩
  · refine ⟨s.pool.writeByte addr.toNat 0, Memory.readByte_writeByte s.pool addr.toNat 0, ?_⟩
    exact (execPoolWrite8_eq addr v s).trans (by rw [if_pos hclear])
  · exact (execPoolWrite8_eq addr v s).trans (by rw [if_neg hignored])

end

