-- ==== Sys2Proof/Proofs/EncodingRules.lean ====
section
/-! SUPPORT. Proofs about the encoding (30_encoding.md): the kinds that spell no transaction (R127), and a descriptor's fields as
bits of its eight STAGE words (R133 to R139). -/

namespace Sys2Proof

/-! ### Reserved kinds (R127) -/

/-- T[63:60] is 0x0 or 0x6..0xF. -/
def HasReservedKind (w : TransWord) : Prop := w.extractLsb' 60 4 = 0x0 ∨ 6 ≤ (w.extractLsb' 60 4).toNat

/-- The kinds that are not reserved are those of R122 to R126. -/
theorem not_hasReservedKind_iff (w : TransWord) :
    ¬ HasReservedKind w ↔ w.extractLsb' 60 4 ∈ ([0x1, 0x2, 0x3, 0x4, 0x5] : List (BitVec 4)) := by
  unfold HasReservedKind
  generalize w.extractLsb' 60 4 = kind
  revert kind
  decide

theorem decode_of_hasReservedKind (w : TransWord) (h : HasReservedKind w) :
    decode w = .error (.reservedKind (w.extractLsb' 60 4)) := by
  have hk := mt (not_hasReservedKind_iff w).2 (not_not.2 h)
  simp only [List.mem_cons, List.not_mem_nil, or_false, not_or] at hk
  obtain ⟨h1, h2, h3, h4, h5⟩ := hk
  simp only [decode, if_neg h1, if_neg h2, if_neg h3, if_neg h4, if_neg h5]

theorem exists_decode_of_not_hasReservedKind (w : TransWord) (h : ¬ HasReservedKind w) : ∃ i, decode w = .ok i := by
  have hk := (not_hasReservedKind_iff w).1 h
  simp only [List.mem_cons, List.not_mem_nil, or_false] at hk
  unfold decode
  rcases hk with hk | hk | hk | hk | hk <;> rw [hk]
  case inr.inl =>
    by_cases hoff : w.extractLsb' 32 12 = 0
    · exact ⟨_, if_pos hoff⟩
    · exact ⟨_, if_neg hoff⟩
  all_goals exact ⟨_, rfl⟩

theorem exists_decode_error_iff (w : TransWord) : (∃ e, decode w = .error e) ↔ HasReservedKind w := by
  refine ⟨fun ⟨e, he⟩ => ?_, fun h => ⟨_, decode_of_hasReservedKind w h⟩⟩
  by_contra h
  obtain ⟨i, hi⟩ := exists_decode_of_not_hasReservedKind w h
  rw [hi] at he
  cases he

/-! ### Fields of a word -/

/-- The bit field `x[s+m-1:s]` as a number. -/
theorem extractLsb'_toNat_eq_div_mod {n : Nat} (x : BitVec n) (s m : Nat) :
    (x.extractLsb' s m).toNat = x.toNat / 2 ^ s % 2 ^ m := by
  rw [BitVec.extractLsb'_toNat, Nat.shiftRight_eq_div_pow]

/-- A field from bit 0 on. -/
theorem extractLsb'_zero_toNat {n : Nat} (x : BitVec n) (m : Nat) : (x.extractLsb' 0 m).toNat = x.toNat % 2 ^ m := by
  rw [extractLsb'_toNat_eq_div_mod, pow_zero, Nat.div_one]

/-- The upper half of a word. -/
theorem extractLsb'_upperHalf_toNat (x : Word) : (x.extractLsb' 16 16).toNat = x.toNat / 2 ^ 16 := by
  have hx : x.toNat < 2 ^ 32 := x.isLt
  rw [extractLsb'_toNat_eq_div_mod]
  omega

/-- Two words side by side. -/
theorem append_toNat_eq_mul_add (hi lo : Word) : (hi ++ lo).toNat = hi.toNat * 2 ^ 32 + lo.toNat := by
  rw [BitVec.toNat_append, ← Nat.shiftLeft_add_eq_or_of_lt lo.isLt, Nat.shiftLeft_eq]

/-- Every 2-bit code is the code of its mode (R139). -/
@[simp] theorem Mode.code_ofCode (c : BitVec 2) : (Mode.ofCode c).code = c := by
  revert c
  decide

namespace Machine

/-- A turn that takes a word of a reserved kind has no next state (R127). -/
theorem runWord_of_hasReservedKind (a : Agent) (w : TransWord) (s : State) (h : HasReservedKind w) :
    runWord a w s = .refused (.reservedKind (w.extractLsb' 60 4)) := by
  simp only [runWord, decode_of_hasReservedKind w h]

end Machine
end Sys2Proof

open Sys2Proof Sys2Proof.Machine

/-- Settles O4: the decoder has a branch for each kind of R122 to R126 and refuses the rest; a turn of either agent that takes a
refused word is refused. -/
theorem reservedKindsAreRefused : Obligations.ReservedKindsAreRefused := by
  refine ⟨exists_decode_error_iff, fun s k w rest ws h => ⟨fun ht hp hw => ?_, fun ht hw => ?_⟩⟩
  · rw [step_producer s k rest w ws ht hp hw]
    exact runWord_of_hasReservedKind .producer w _ h
  · rw [step_consumer s rest w ws ht hw]
    exact runWord_of_hasReservedKind .consumer w _ h

/-- Settles O45: each field is two words side by side, a bit field or one bit of its word, and a mode's code is the code it was
made of. -/
theorem descriptorFieldsAreTheirBits : Obligations.DescriptorFieldsAreTheirBits := by
  refine fun d => ⟨?p0, ?p1, ?id, ?lengthBits, ?maxHammingDistance, ?dataState, ?inverted, ?frameLengthBits, ?startOffset,
    ?subBlockBits, ?subBlockBytes, ?postProcess⟩
  case p0 => exact append_toNat_eq_mul_add (d 1) (d 0)
  case p1 => exact append_toNat_eq_mul_add (d 3) (d 2)
  case id => exact extractLsb'_zero_toNat (d 4) 8
  case lengthBits => exact extractLsb'_toNat_eq_div_mod (d 4) 8 8
  case maxHammingDistance => exact extractLsb'_toNat_eq_div_mod (d 4) 16 8
  case dataState =>
    calc (decodeDescriptor d).dataState.code.toNat
      _ = ((d 4).extractLsb' 24 2).toNat := by rw [decodeDescriptor, Mode.code_ofCode]
      _ = (d 4).toNat / 2 ^ 24 % 4 := extractLsb'_toNat_eq_div_mod (d 4) 24 2
  case inverted => exact Nat.testBit_eq_decide_div_mod_eq
  case frameLengthBits => exact extractLsb'_zero_toNat (d 5) 16
  case startOffset => exact extractLsb'_upperHalf_toNat (d 5)
  case subBlockBits => exact extractLsb'_zero_toNat (d 6) 16
  case subBlockBytes => exact extractLsb'_upperHalf_toNat (d 6)
  case postProcess => exact extractLsb'_zero_toNat (d 7) 8
end

