-- ==== Sys2Proof/Proofs/CorrelatorRules.lean ====
section
/-! SUPPORT. Proofs about the correlator (40_correlator.md): the masked Hamming distance (R163), and the FEED in HUNT that matches
nothing (R166) or an entry whose frame has length 0 (R167). -/

namespace Sys2Proof.Machine

/-! ### The masked Hamming distance (R163) -/

/-- The mask holds the low `lengthBits` bits; a length of 128 bits is the whole window. -/
theorem lengthMask_getLsbD (lengthBits : Byte) (h : lengthBits.toNat ≤ winBits) (i : Nat) :
    (lengthMask lengthBits).getLsbD i = decide (i < lengthBits.toNat) := by
  unfold lengthMask
  split
  · rename_i hfull
    rw [BitVec.getLsbD_allOnes, hfull]
  · rw [BitVec.getLsbD_ofNat, Nat.testBit_two_pow_sub_one]
    by_cases hi : i < lengthBits.toNat
    · simp [hi, hi.trans_le h]
    · simp [hi]

/-- A bit of window XOR P, with P = p1 : p0, is 1 where the two differ (R133). -/
theorem xor_pattern_getLsbD (spec : PatternSpec) (w : BitVec winBits) (i : Nat) :
    (w ^^^ (spec.p1 ++ spec.p0)).getLsbD i =
      (w.getLsbD i != if i < 64 then spec.p0.getLsbD i else spec.p1.getLsbD (i - 64)) := by
  rw [BitVec.getLsbD_xor, BitVec.getLsbD_append]

/-- Counting below n the numbers below m is counting below m. -/
theorem countP_range_lt_and (p : Nat → Bool) {m n : Nat} (h : m ≤ n) :
    (List.range n).countP (fun i => p i && decide (i < m)) = (List.range m).countP p := by
  induction n, h using Nat.le_induction with
  | base =>
    refine List.countP_congr fun i hi => ?_
    simp [List.mem_range.1 hi]
  | succ n hmn ih =>
    simp [List.range_succ, List.countP_append, ih, Nat.not_lt.2 hmn]

/-- Only the bits below `lengthBits` are counted. -/
theorem popcount_and_lengthMask (v : BitVec winBits) (lengthBits : Byte) (h : lengthBits.toNat ≤ winBits) :
    popcount (v &&& lengthMask lengthBits) = (List.range lengthBits.toNat).countP v.getLsbD := by
  calc popcount (v &&& lengthMask lengthBits)
    _ = (List.range winBits).countP fun i => v.getLsbD i && decide (i < lengthBits.toNat) :=
      List.countP_congr fun i _ => by rw [BitVec.getLsbD_and, lengthMask_getLsbD _ h]
    _ = (List.range lengthBits.toNat).countP v.getLsbD := countP_range_lt_and _ h

/-! ### Match selection (R164) -/

theorem patternMatches_eq_true_iff (spec : PatternSpec) (w : BitVec winBits) :
    patternMatches spec w = true ↔ hammingDistance spec w ≤ spec.maxHammingDistance.toNat := by
  simp [patternMatches]

theorem patternMatches_eq_false_iff (spec : PatternSpec) (w : BitVec winBits) :
    patternMatches spec w = false ↔ spec.maxHammingDistance.toNat < hammingDistance spec w := by
  simp [patternMatches]

/-- R166: the compare finds no entry. -/
theorem huntStep_of_noMatch (t : Word) (s : State)
    (h : ∀ spec ∈ s.table, spec.maxHammingDistance.toNat < hammingDistance spec s.window) : huntStep t s = s := by
  have hnone : findMatch s.window 0 s.table = none :=
    (findMatch_none _ _ _).2 fun q hq => (patternMatches_eq_false_iff q _).2 (h q hq)
  simp only [huntStep, hnone]

/-- R164, R165: the compare finds the first entry within its tolerance. -/
theorem huntStep_of_firstMatch (t : Word) (s : State) (i : Nat) (spec : PatternSpec) (hi : s.table[i]? = some spec)
    (hd : hammingDistance spec s.window ≤ spec.maxHammingDistance.toNat)
    (hb : ∀ j q, j < i → s.table[j]? = some q → q.maxHammingDistance.toNat < hammingDistance q s.window) :
    huntStep t s = matchPattern i spec t s := by
  have hsome : findMatch s.window 0 s.table = some (i, spec) :=
    (findMatch_some _ _ _ _ _).2 ⟨Nat.zero_le i, hi, (patternMatches_eq_true_iff spec _).2 hd,
      fun j q hj hq => (patternMatches_eq_false_iff q _).2 (hb j q hj hq)⟩
  simp only [huntStep, hsome]

/-- R167: an entry of length 0 completes in its match. -/
theorem matchPattern_of_zeroLength (i : Nat) (spec : PatternSpec) (t : Word) (s : State) (h : spec.frameLengthBits = 0) :
    matchPattern i spec t s = completeFrame spec (startFrame i spec t s) :=
  if_pos h

/-! ### Completion (R220) -/

theorem hookGives_hook (spec : PatternSpec) (data : Buffer) (param : Half) (rxTime : Word) :
    HookGives spec data param rxTime (hook spec.postProcess spec data param rxTime).1
      (hook spec.postProcess spec data param rxTime).2 := by
  obtain ⟨hid, hfree⟩ := hook_gives spec data param rxTime
  exact ⟨fun h => Prod.mk.inj (hid h), hfree⟩

/-- A FEED that completes the frame of s ends in the state that R220 and R222 describe. -/
theorem completedFrom_completeFrame (spec : PatternSpec) (s : State) :
    CompletedFrom s spec s.window (hook spec.postProcess spec s.stage s.curParam s.rxTimeLatch).1 s.fault s.rxTimeLatch
      s.framingErrCount s.draws (hook spec.postProcess spec s.stage s.curParam s.rxTimeLatch).2 allFieldWrites
      (respond .producer okResponse (completeFrame spec s)) :=
  ⟨targetSlot s.writeIndex, rfl, rfl⟩

end Sys2Proof.Machine

open Sys2Proof Sys2Proof.Machine

/-- Settles O9: the mask cuts the count off at `lengthBits`, and below it the bits of window XOR P are the differences. -/
theorem hammingDistanceCountsDifferingBits : Obligations.HammingDistanceCountsDifferingBits := by
  intro spec w h
  calc hammingDistance spec w
    _ = (List.range spec.lengthBits.toNat).countP (w ^^^ (spec.p1 ++ spec.p0)).getLsbD :=
      popcount_and_lengthMask _ spec.lengthBits h
    _ = differingBits spec w := List.countP_congr fun i _ => by rw [xor_pattern_getLsbD]

/-- Settles O10: the compare on the shifted window finds nothing, so only the shift and the response remain. -/
theorem feedWithoutMatchOnlyShifts : Obligations.FeedWithoutMatchOnlyShifts := by
  intro s b t w hp hm hw hno
  rw [exec_feed_hunt s b t hp hm, shiftWindow_eq hw, huntStep_of_noMatch t { s with window := w } hno]
  rfl

/-- Settles O12: the first match starts its frame on fresh draws and, its length being 0, completes it in the same FEED; the match
changes no field of s that the completion keeps, but those named. -/
theorem zeroLengthFrameCompletesAtItsMatch : Obligations.ZeroLengthFrameCompletesAtItsMatch := by
  intro s b t w i spec hp hm hw hi hd hb hz
  refine ⟨drawBuffer s.draws, _, _, _, allFieldWrites, _, hookGives_hook spec (drawBuffer s.draws) 0 t,
    allFieldWrites_complete, completedFrom_completeFrame spec (startFrame i spec t { s with window := w }), ?_⟩
  rw [exec_feed_hunt s b t hp hm, shiftWindow_eq hw, huntStep_of_firstMatch t { s with window := w } i spec hi hd hb,
    matchPattern_of_zeroLength i spec t _ hz]
end

section
/-! SUPPORT. Proofs about one FEED of the collector (41_collector.md): what it does in each decode mode (R196, R200, R201, R207). -/

namespace Sys2Proof.Machine

/-! ### One FEED that places its bit (R191, R196, R207) -/

/-- `put(d)` on a state that differs from s only in window and held half has the effect R191 to R195 describe on s. -/
theorem putBit_effect_from (spec : PatternSpec) (d lsbFirst : Bool) (s : State) (w : BitVec winBits) (h : Option Bool)
    (hl : decide (s.mode = .dataUart8N1) = lsbFirst) :
    PutEffect spec d lsbFirst s (putBit spec d { s with window := w, half := h }).stage
      (putBit spec d { s with window := w, half := h }).fault (putBit spec d { s with window := w, half := h }).subCount
      (putBit spec d { s with window := w, half := h }).base := by
  subst hl
  obtain ⟨hbits, hoverflow, hcounter, hcursor⟩ := putBit_effect spec d { s with window := w, half := h }
  exact ⟨hbits, hoverflow, hcounter, hcursor⟩

/-- R196, R207: an MSB-first payload bit is placed and counted, and completes the frame exactly when `bitCount` reaches
`frameLengthBits`. -/
theorem completeIfFull_putBit (spec : PatternSpec) (d : Bool) (s : State) (w : BitVec winBits) (h : Option Bool)
    (hm : s.mode ≠ .dataUart8N1) :
    ∃ (stage : Buffer) (fault : Bool) (subCount base : Half), PutEffect spec d false s stage fault subCount base ∧
      (s.bitCount + 1 ≠ spec.frameLengthBits →
        respond .producer okResponse (completeIfFull spec (countBit (putBit spec d { s with window := w, half := h }))) =
          { s with
            window := w, half := h, stage := stage, fault := fault, subCount := subCount, base := base,
            bitCount := s.bitCount + 1, producerResp := some ⟨.ok, 0⟩ }) ∧
      (s.bitCount + 1 = spec.frameLengthBits →
        ∃ (data : Buffer) (param : Half) (W : List FieldWrite) (u : State),
          HookGives spec stage s.curParam s.rxTimeLatch data param ∧ CompleteW W ∧
          CompletedFrom s spec w data fault s.rxTimeLatch s.framingErrCount s.draws param W u ∧
          respond .producer okResponse
            (completeIfFull spec (countBit (putBit spec d { s with window := w, half := h }))) = u) := by
  refine ⟨_, _, _, _, putBit_effect_from spec d false s w h (decide_eq_false hm), fun hne => ?_, fun heq => ?_⟩
  · rw [completeIfFull, if_neg (by exact hne)]
    rfl
  · rw [completeIfFull, if_pos (by exact heq)]
    exact ⟨_, _, allFieldWrites, _, hookGives_hook spec _ _ _, allFieldWrites_complete,
      completedFrom_completeFrame spec (countBit (putBit spec d { s with window := w, half := h })), rfl⟩

/-- FEED in DATA_RAW (R196). -/
theorem exec_feed_raw {s : State} {b : Bool} {w : BitVec winBits} {spec : PatternSpec} (t : Word) (hp : s.pub = none)
    (hm : s.mode = .dataRaw) (ha : s.activeSpec = some spec) (hw : IsShift s.window b w) :
    exec (.feed b t) s = .next (respond .producer okResponse (rawStep spec b { s with window := w })) := by
  rw [exec_feed_collect s b t spec hp (by simp [hm]) ha, shiftWindow_eq hw]
  simp only [collect, hm]

/-- FEED in DATA_BIPHASE_S (R207). -/
theorem exec_feed_biphase {s : State} {b : Bool} {w : BitVec winBits} {spec : PatternSpec} (t : Word) (hp : s.pub = none)
    (hm : s.mode = .dataBiphaseS) (ha : s.activeSpec = some spec) (hw : IsShift s.window b w) :
    exec (.feed b t) s = .next (respond .producer okResponse (biphaseStep spec b { s with window := w })) := by
  rw [exec_feed_collect s b t spec hp (by simp [hm]) ha, shiftWindow_eq hw]
  simp only [collect, hm]

/-- FEED in DATA_UART_8N1 (R200). -/
theorem exec_feed_uart {s : State} {b : Bool} {w : BitVec winBits} {spec : PatternSpec} (t : Word) (hp : s.pub = none)
    (hm : s.mode = .dataUart8N1) (ha : s.activeSpec = some spec) (hw : IsShift s.window b w) :
    exec (.feed b t) s = .next (respond .producer okResponse (uartStep spec b { s with window := w })) := by
  rw [exec_feed_collect s b t spec hp (by simp [hm]) ha, shiftWindow_eq hw]
  simp only [collect, hm]

/-! ### The position within a UART character (R200 to R202) -/

theorem uartStep_of_startBit {s : State} (h : s.uartPhase.val = 0) (spec : PatternSpec) (b : Bool) :
    uartStep spec b s = uartStart b s :=
  if_pos h

theorem uartStep_of_dataBit {s : State} (h1 : 1 ≤ s.uartPhase.val) (h8 : s.uartPhase.val ≤ 8) (spec : PatternSpec)
    (b : Bool) : uartStep spec b s = uartData spec b s := by
  rw [uartStep, if_neg (Nat.ne_of_gt h1), if_pos h8]

theorem uartStep_of_stopBit {s : State} (h : s.uartPhase.val = 9) (spec : PatternSpec) (b : Bool) :
    uartStep spec b s = uartStop spec b s := by
  rw [uartStep, if_neg (by omega), if_neg (by omega)]

/-- R201: a data bit below `frameLengthBits` is placed and counted. -/
theorem uartData_of_lt {spec : PatternSpec} {s : State} (h : s.bitCount.toNat < spec.frameLengthBits.toNat) (b : Bool) :
    uartData spec b s = { countBit (putBit spec b s) with uartPhase := s.uartPhase + 1 } := by
  rw [uartData, if_pos h]

/-- R201: a data bit at or past `frameLengthBits` is counted only. -/
theorem uartData_of_le {spec : PatternSpec} {s : State} (h : spec.frameLengthBits.toNat ≤ s.bitCount.toNat) (b : Bool) :
    uartData spec b s = { countBit s with uartPhase := s.uartPhase + 1 } := by
  rw [uartData, if_neg (Nat.not_lt.2 h)]

/-- R202: the stop bit of a character before the last. -/
theorem uartStop_of_lt {spec : PatternSpec} {s : State} (h : s.bitCount.toNat < spec.frameLengthBits.toNat) (b : Bool) :
    uartStop spec b s = { countFraming (!b) s with uartPhase := 0 } :=
  if_neg (Nat.not_le.2 h)

/-- R202: the stop bit of the last character. -/
theorem uartStop_of_le {spec : PatternSpec} {s : State} (h : spec.frameLengthBits.toNat ≤ s.bitCount.toNat) (b : Bool) :
    uartStop spec b s = completeFrame spec { countFraming (!b) s with uartPhase := 0 } :=
  if_pos h

/-- The phase after a bit that is not the stop bit. -/
theorem uartPhase_succ_eq {p q : Fin 10} (h8 : p.val ≤ 8) (h : q.val = p.val + 1) : p + 1 = q := by
  apply Fin.ext
  rw [h, Fin.val_add]
  exact Nat.mod_eq_of_lt (by omega)

end Sys2Proof.Machine

open Sys2Proof Sys2Proof.Machine

/-- Settles O15: the FEED is `put(b)`, the count, and the completion of a full frame. -/
theorem rawFeedPlacesItsBit : Obligations.RawFeedPlacesItsBit := by
  intro s b t w spec hp hm ha hw
  have hstep := completeIfFull_putBit spec b s w s.half (by simp [hm])
  simpa only [exec_feed_raw t hp hm ha hw, rawStep, Host.Outcome.next.injEq] using hstep

/-- Settles O17: the two cases of a data bit, below `frameLengthBits` and at or past it. -/
theorem uartDataBit : Obligations.UartDataBit := by
  intro s b t w spec phase hp hm ha hw h1 h8 hphase
  have hexec := exec_feed_uart t hp hm ha hw
  rw [uartStep_of_dataBit (s := { s with window := w }) h1 h8] at hexec
  obtain rfl := uartPhase_succ_eq h8 hphase
  refine ⟨fun hlt => ⟨_, _, _, _, putBit_effect_from spec b true s w s.half (decide_eq_true hm), ?_⟩, fun hle => ?_⟩
  · rw [hexec, uartData_of_lt (s := { s with window := w }) hlt]
    rfl
  · rw [hexec, uartData_of_le (s := { s with window := w }) hle]
    rfl

/-- Settles O19: with no half held the FEED holds b; with half h held it is the placement of h XOR b, the count, and the
completion of a full frame. -/
theorem biphaseFeedPairsHalfBits : Obligations.BiphaseFeedPairsHalfBits := by
  intro s b t w spec hp hm ha hw
  have hexec := exec_feed_biphase t hp hm ha hw
  refine ⟨fun hnone => ?_, fun h hsome => ?_⟩
  · rw [hexec, biphaseStep]
    simp only [hnone]
    rfl
  · have hstep := completeIfFull_putBit spec (h ^^ b) s w none (by simp [hm])
    simpa only [hexec, biphaseStep, hsome, Host.Outcome.next.injEq] using hstep
end

section
/-! SUPPORT. A UART frame as a whole (41_collector.md R200 to R204): where the payload bits of a frame without sub-blocks lie, and
the progress that FEED after FEED makes up to the publish. -/

namespace Sys2Proof.Machine

/-! ### The placed bits of a frame without sub-blocks (R191, R192) -/

/-- The bytes from `startOffset` on hold `bits` in the order of the mode (R97), inverted if the entry says so; the bits of the
last byte that no payload bit reaches are 0; every other byte is as it was. -/
def HoldsInOrder (lsbFirst : Bool) (spec : PatternSpec) (bits : List Bool) (before data : Buffer) : Prop :=
  ∀ (x : Fin bufBytes) (p : Nat), p < 8 →
    data[x].getLsbD p =
      if spec.startOffset.toNat ≤ x.val ∧ x.val < spec.startOffset.toNat + (bits.length + 7) / 8 then
        (bits[8 * (x.val - spec.startOffset.toNat) + if lsbFirst then p else 7 - p]?).elim false (· ^^ spec.inverted)
      else before[x].getLsbD p

theorem holdsInOrder_lsbFirst_iff (spec : PatternSpec) (bits : List Bool) (before data : Buffer) :
    HoldsInOrder true spec bits before data ↔ HoldsLsbFirst spec bits before data := by
  refine forall₃_congr fun x p _ => ?_
  simp only [if_true]
  cases bits[8 * (x.val - spec.startOffset.toNat) + p]? <;> rfl

theorem holdsInOrder_nil (lsbFirst : Bool) (spec : PatternSpec) (buf : Buffer) : HoldsInOrder lsbFirst spec [] buf buf := by
  intro x p _
  rw [if_neg (by simp only [List.length_nil]; omega)]

/-- `put(d)` with k bits placed puts d in byte `startOffset + k div 8`, at the place after the last bit's (R191, R192). -/
theorem HoldsInOrder.put {lsbFirst : Bool} {spec : PatternSpec} {bits : List Bool} {before : Buffer} {s : State} {d : Bool}
    {stage : Buffer} {fault : Bool} {subCount base : Half} (h : HoldsInOrder lsbFirst spec bits before s.stage)
    (hbase : s.base = spec.startOffset) (hcount : s.subCount.toNat = bits.length)
    (heff : PutEffect spec d lsbFirst s stage fault subCount base) :
    HoldsInOrder lsbFirst spec (bits ++ [d]) before stage := by
  intro x p hp
  have hold := h x p hp
  have hnew := heff.bits x p hp
  rw [hbase, hcount] at hnew
  obtain ⟨q, hq⟩ : ∃ q, (if lsbFirst then p else 7 - p) = q := ⟨_, rfl⟩
  have hplace : (p = if lsbFirst then bits.length % 8 else 7 - bits.length % 8) ↔ q = bits.length % 8 := by
    rw [← hq]
    split_ifs <;> omega
  have hq8 : q < 8 := by
    rw [← hq]
    split_ifs <;> omega
  rw [hq] at hold ⊢
  simp only [hplace] at hnew
  rw [hnew, List.length_append, List.length_singleton]
  by_cases hx : x.val = spec.startOffset.toNat + bits.length / 8
  · have hin : spec.startOffset.toNat ≤ x.val ∧ x.val < spec.startOffset.toNat + (bits.length + 1 + 7) / 8 := by omega
    rw [if_pos hx, if_pos hin]
    have hclear (hle : bits.length % 8 ≤ q) :
        (decide (bits.length % 8 ≠ 0) && s.stage[x].getLsbD p) = false := by
      by_cases hk : bits.length % 8 = 0
      · simp [hk]
      · rw [hold, if_pos (by omega), List.getElem?_eq_none (by omega), Option.elim_none, Bool.and_false]
    -- Before the new place the byte keeps its bits, at it stands d, after it the byte is still clear.
    rcases Nat.lt_trichotomy q (bits.length % 8) with hlt | heq | hgt
    · have hin' : spec.startOffset.toNat ≤ x.val ∧ x.val < spec.startOffset.toNat + (bits.length + 7) / 8 := by omega
      rw [hold, if_pos hin', List.getElem?_append_left (by omega)]
      simp [Nat.ne_of_lt hlt, Nat.ne_of_gt (Nat.zero_lt_of_lt hlt)]
    · rw [hclear heq.ge, show 8 * (x.val - spec.startOffset.toNat) + q = bits.length by omega]
      simp [heq]
    · rw [hclear hgt.le, List.getElem?_eq_none (by rw [List.length_append, List.length_singleton]; omega)]
      simp [Nat.ne_of_gt hgt]
  · rw [if_neg hx, hold]
    by_cases hlt : spec.startOffset.toNat ≤ x.val ∧ x.val < spec.startOffset.toNat + bits.length / 8
    · rw [if_pos (by omega), if_pos (by omega), List.getElem?_append_left (by omega)]
    · rw [if_neg (by omega), if_neg (by omega)]

/-- In a frame of an entry without sub-blocks `bits` are placed, and the next bit goes after them (R191, R194). -/
def PlacedInOrder (lsbFirst : Bool) (spec : PatternSpec) (bits : List Bool) (before : Buffer) (s : State) : Prop :=
  s.base = spec.startOffset ∧ s.subCount.toNat = bits.length ∧ HoldsInOrder lsbFirst spec bits before s.stage

/-- The 16-bit counters of a frame do not wrap (R9). -/
theorem half_toNat_add_one {x : Half} {n : Nat} (h : x.toNat = n) (hn : n + 1 < 2 ^ 16) : (x + 1).toNat = n + 1 := by
  subst h
  exact BitVec.toNat_add_of_lt hn

theorem PlacedInOrder.putBit {lsbFirst : Bool} {spec : PatternSpec} {bits : List Bool} {before : Buffer} {s : State}
    (h : PlacedInOrder lsbFirst spec bits before s) (hsub : spec.subBlockBits = 0)
    (hm : decide (s.mode = .dataUart8N1) = lsbFirst) (hlen : bits.length + 1 < 2 ^ 16) (d : Bool) :
    PlacedInOrder lsbFirst spec (bits ++ [d]) before (putBit spec d s) := by
  obtain ⟨hbase, hcount, hholds⟩ := h
  have hends : endsSubBlock spec s = false := by simp [endsSubBlock, hsub]
  refine ⟨?_, ?_, hholds.put hbase hcount (hm ▸ putBit_effect spec d s)⟩
  · simp [hends, hbase]
  · simpa [hends] using half_toNat_add_one hcount hlen

/-- R220, R240: what a completed frame schedules; with hook 0 it is the staging bytes and `curParam` as they stand (R12). -/
theorem completeFrame_publishes (spec : PatternSpec) (s : State) :
    ∃ p, (completeFrame spec s).pub = some p ∧ p.checked = false ∧ CompleteW p.pending ∧ p.opcode = spec.id ∧
      p.rxTime = s.rxTimeLatch ∧ (spec.postProcess = 0 → p.param = s.curParam ∧ p.data = s.stage) := by
  refine ⟨_, completeFrame_pub s spec, rfl, allFieldWrites_complete, rfl, rfl, fun hz => ?_⟩
  simp [publishRecord, (hook_gives spec s.stage s.curParam s.rxTimeLatch).1 hz]

/-! ### The data bits among the FEEDs (R200) -/

/-- The data bits among the bits fed from bit n of the frame on: those at the places 1 to 8 of their characters. -/
def uartDataBits : Nat → List Bool → List Bool
  | _, [] => []
  | n, b :: rest => (if 1 ≤ n % 10 ∧ n % 10 ≤ 8 then [b] else []) ++ uartDataBits (n + 1) rest

@[simp] theorem uartDataBits_nil (n : Nat) : uartDataBits n [] = [] := rfl

/-- A start or a stop bit is no data bit. -/
theorem uartDataBits_cons_of_framing {n : Nat} (h : n % 10 = 0 ∨ n % 10 = 9) (b : Bool) (rest : List Bool) :
    uartDataBits n (b :: rest) = uartDataBits (n + 1) rest := by
  rw [uartDataBits, if_neg (by omega), List.nil_append]

theorem uartDataBits_cons_of_data {n : Nat} (h1 : 1 ≤ n % 10) (h8 : n % 10 ≤ 8) (b : Bool) (rest : List Bool) :
    uartDataBits n (b :: rest) = b :: uartDataBits (n + 1) rest := by
  rw [uartDataBits, if_pos ⟨h1, h8⟩, List.singleton_append]

theorem uartDataBits_append (ys : List Bool) :
    ∀ (xs : List Bool) (n : Nat), uartDataBits n (xs ++ ys) = uartDataBits n xs ++ uartDataBits (n + xs.length) ys
  | [], n => rfl
  | x :: xs, n => by
    simp only [List.cons_append, uartDataBits, uartDataBits_append ys xs (n + 1), List.append_assoc, List.length_cons,
      Nat.add_assoc, Nat.add_comm 1]

/-- Data bits in one character. -/
theorem uartDataBits_of_data : ∀ (data : List Bool) (n : Nat), 1 ≤ n % 10 → n % 10 + data.length ≤ 9 →
    uartDataBits n data = data
  | [], _, _, _ => rfl
  | [d], n, h1, h9 => uartDataBits_cons_of_data h1 (Nat.le_of_succ_le_succ h9) d []
  | d :: d' :: data, n, h1, h9 => by
    simp only [List.length_cons] at h9
    rw [uartDataBits_cons_of_data h1 (by omega),
      uartDataBits_of_data (d' :: data) (n + 1) (by omega) (by rw [List.length_cons]; omega)]

theorem uartDataBits_character {n : Nat} (hn : n % 10 = 0) (start stop : Bool) {data : List Bool} (h : data.length = 8) :
    uartDataBits n (uartCharacter start data stop) = data := by
  rw [uartCharacter, uartDataBits_cons_of_framing (.inl hn), uartDataBits_append,
    uartDataBits_of_data data (n + 1) (by omega) (by omega), uartDataBits_cons_of_framing (by omega), uartDataBits_nil,
    List.append_nil]

theorem uartDataBits_characters : ∀ (chars : List (Bool × List Bool × Bool)) (n : Nat), n % 10 = 0 →
    (∀ c ∈ chars, c.2.1.length = 8) →
    uartDataBits n (chars.flatMap fun c => uartCharacter c.1 c.2.1 c.2.2) = chars.flatMap fun c => c.2.1
  | [], _, _, _ => rfl
  | c :: chars, n, hn, h => by
    obtain ⟨hc, hrest⟩ := List.forall_mem_cons.1 h
    have hlen : (uartCharacter c.1 c.2.1 c.2.2).length = 10 := by simp [uartCharacter, hc]
    rw [List.flatMap_cons, List.flatMap_cons, uartDataBits_append, uartDataBits_character hn _ _ hc, hlen,
      uartDataBits_characters chars (n + 10) (by omega) hrest]

/-! ### A data bit, placed or not (R201) -/

section
variable (spec : PatternSpec) (b : Bool) (s : State)

@[simp] theorem uartData_pub : (uartData spec b s).pub = s.pub := by
  unfold uartData
  split <;> rfl

@[simp] theorem uartData_activeSpec : (uartData spec b s).activeSpec = s.activeSpec := by
  unfold uartData
  split <;> rfl

@[simp] theorem uartData_uartPhase : (uartData spec b s).uartPhase = s.uartPhase + 1 := by
  unfold uartData
  split <;> rfl

@[simp] theorem uartData_bitCount : (uartData spec b s).bitCount = s.bitCount + 1 := by
  unfold uartData
  split <;> rfl

@[simp] theorem uartData_rxTimeLatch : (uartData spec b s).rxTimeLatch = s.rxTimeLatch := by
  unfold uartData
  split <;> rfl

@[simp] theorem uartData_curParam : (uartData spec b s).curParam = s.curParam := by
  unfold uartData
  split <;> rfl

end

/-- R201: of the data bits consumed, the first `frameLengthBits` are placed. -/
theorem PlacedInOrder.uartData {spec : PatternSpec} {bits : List Bool} {before : Buffer} {s : State}
    (h : PlacedInOrder true spec (bits.take spec.frameLengthBits.toNat) before s) (hsub : spec.subBlockBits = 0)
    (hm : s.mode = .dataUart8N1) (hcount : s.bitCount.toNat = bits.length) (b : Bool) :
    PlacedInOrder true spec ((bits ++ [b]).take spec.frameLengthBits.toNat) before (uartData spec b s) := by
  rcases Nat.lt_or_ge bits.length spec.frameLengthBits.toNat with hlt | hle
  · have hF := spec.frameLengthBits.isLt
    rw [List.take_of_length_le hlt.le] at h
    rw [uartData_of_lt (by rwa [hcount]), List.take_of_length_le (by simpa using hlt)]
    exact h.putBit hsub (decide_eq_true hm) (by omega) b
  · rw [uartData_of_le (by rwa [hcount]), List.take_append_of_le_length hle]
    exact h

/-! ### FEED after FEED (R200 to R203) -/

/-- The number of FEEDs that R202 gives a UART frame. -/
def uartFrameFeeds (spec : PatternSpec) : Nat := 10 * ((spec.frameLengthBits.toNat + 7) / 8)

/-- A UART frame that started in s is in progress in u: n of its bits are fed, `bits` are the data bits among them, and the first
`frameLengthBits` of those are placed. -/
structure UartProgress (s : State) (spec : PatternSpec) (n : Nat) (bits : List Bool) (u : State) : Prop where
  unfinished : n < uartFrameFeeds spec
  pub : u.pub = none
  mode : u.mode = .dataUart8N1
  active : u.activeSpec = some spec
  phase : u.uartPhase.val = n % 10
  count : u.bitCount.toNat = bits.length
  length : bits.length = 8 * (n / 10) + (n % 10 - 1)
  rxTime : u.rxTimeLatch = s.rxTimeLatch
  param : u.curParam = s.curParam
  placed : spec.subBlockBits = 0 → PlacedInOrder true spec (bits.take spec.frameLengthBits.toNat) s.stage u

/-- A UART frame that started in s, with the data bits `bits`, has just been scheduled for publication in u (R220, R240). -/
def UartScheduled (s : State) (spec : PatternSpec) (bits : List Bool) (u : State) : Prop :=
  u.mode = .hunt ∧ ∃ p, u.pub = some p ∧ p.checked = false ∧ CompleteW p.pending ∧ p.opcode = spec.id ∧
    p.rxTime = s.rxTimeLatch ∧
    (spec.subBlockBits = 0 → spec.postProcess = 0 →
      p.param = s.curParam ∧ HoldsInOrder true spec (bits.take spec.frameLengthBits.toNat) s.stage p.data)

/-- A UART frame after n FEEDs: in progress before the last, scheduled at the last (R202). -/
def UartAfter (s : State) (spec : PatternSpec) (n : Nat) (bits : List Bool) (u : State) : Prop :=
  (n < uartFrameFeeds spec → UartProgress s spec n bits u) ∧ (n = uartFrameFeeds spec → UartScheduled s spec bits u)

theorem UartProgress.after {s u : State} {spec : PatternSpec} {n : Nat} {bits : List Bool}
    (h : UartProgress s spec n bits u) : UartAfter s spec n bits u :=
  ⟨fun _ => h, fun hn => absurd hn (Nat.ne_of_lt h.unfinished)⟩

/-- Neither the window nor the response matters to the progress. -/
theorem UartProgress.window_respond {s u : State} {spec : PatternSpec} {n : Nat} {bits : List Bool}
    (h : UartProgress s spec n bits u) (w : BitVec winBits) (r : Option Response) :
    UartProgress s spec n bits { u with window := w, producerResp := r } :=
  ⟨h.unfinished, h.pub, h.mode, h.active, h.phase, h.count, h.length, h.rxTime, h.param, h.placed⟩

theorem UartAfter.respond {s u : State} {spec : PatternSpec} {n : Nat} {bits : List Bool}
    (h : UartAfter s spec n bits u) (r : Response) : UartAfter s spec n bits (respond .producer r u) :=
  ⟨fun hn => (h.1 hn).window_respond u.window (some r), h.2⟩

/-- R283: the bytes of the frame are bytes of the buffer. -/
theorem FreshFrame.frameBytes_le {s : State} {i : Nat} {spec : PatternSpec} {mode : Mode} (h : FreshFrame s i spec mode) :
    (spec.frameLengthBits.toNat + 7) / 8 ≤ bufBytes := by
  obtain ⟨-, -, -, -, -, -, -, -, -, -, hrange⟩ := h
  exact le_of_add_le_right hrange

theorem FreshFrame.uartProgress {s : State} {i : Nat} {spec : PatternSpec} (h : FreshFrame s i spec .dataUart8N1) :
    UartProgress s spec 0 [] s := by
  obtain ⟨hpub, hmode, hact, htable, hbits, hsub, hbase, hphase, -, hlength, -⟩ := h
  have hpos : 0 < spec.frameLengthBits.toNat := Nat.pos_of_ne_zero fun hz => hlength (BitVec.eq_of_toNat_eq hz)
  refine ⟨?_, hpub, hmode, by simp [State.activeSpec, hact, htable], by rw [hphase]; rfl, by rw [hbits]; rfl, rfl, rfl, rfl,
    fun _ => ⟨hbase, by rw [hsub, List.take_nil]; rfl, by rw [List.take_nil]; exact holdsInOrder_nil true spec s.stage⟩⟩
  unfold uartFrameFeeds
  omega

section
variable {s u : State} {spec : PatternSpec} {n : Nat} {bits : List Bool}

/-- R200: the start bit. -/
theorem UartProgress.startBit (h : UartProgress s spec n bits u) (hn : n % 10 = 0) (b : Bool) :
    UartProgress s spec (n + 1) bits (uartStart b u) where
  unfinished := by
    have hlt := h.unfinished
    unfold uartFrameFeeds at hlt ⊢
    omega
  pub := h.pub
  mode := h.mode
  active := h.active
  phase := by
    show 1 = (n + 1) % 10
    omega
  count := h.count
  length := by
    rw [h.length]
    omega
  rxTime := h.rxTime
  param := h.param
  placed := h.placed

/-- R201: a data bit; a frame within the buffer (R283) has too few of them for `bitCount` to wrap. -/
theorem UartProgress.dataBit (h : UartProgress s spec n bits u) (hfit : (spec.frameLengthBits.toNat + 7) / 8 ≤ bufBytes)
    (h1 : 1 ≤ n % 10) (h8 : n % 10 ≤ 8) (b : Bool) : UartProgress s spec (n + 1) (bits ++ [b]) (uartData spec b u) where
  unfinished := by
    have hlt := h.unfinished
    unfold uartFrameFeeds at hlt ⊢
    omega
  pub := by rw [uartData_pub, h.pub]
  mode := by rw [uartData_mode, h.mode]
  active := by rw [uartData_activeSpec, h.active]
  phase := by
    rw [uartData_uartPhase, Fin.val_add, h.phase]
    exact (Nat.add_mod n 1 10).symm
  count := by
    have hlt := h.unfinished
    have hlen := h.length
    unfold uartFrameFeeds at hlt
    unfold bufBytes at hfit
    rw [uartData_bitCount, List.length_append]
    exact half_toNat_add_one h.count (by omega)
  length := by
    rw [List.length_append, List.length_singleton, h.length]
    omega
  rxTime := by rw [uartData_rxTimeLatch, h.rxTime]
  param := by rw [uartData_curParam, h.param]
  placed hsub := (h.placed hsub).uartData hsub h.mode h.count b

/-- R202: the stop bit completes the frame exactly when it is the last of its FEEDs. -/
theorem UartProgress.stopBit (h : UartProgress s spec n bits u) (hn : n % 10 = 9) (b : Bool) :
    UartAfter s spec (n + 1) bits (uartStop spec b u) := by
  have hlen := h.length
  have hcount := h.count
  refine ⟨fun hlt => ?_, fun heq => ?_⟩
  · have hF : u.bitCount.toNat < spec.frameLengthBits.toNat := by
      unfold uartFrameFeeds at hlt
      omega
    rw [uartStop_of_lt hF]
    exact ⟨hlt, h.pub, h.mode, h.active, by show 0 = (n + 1) % 10; omega, hcount, by omega, h.rxTime, h.param, h.placed⟩
  · have hF : spec.frameLengthBits.toNat ≤ u.bitCount.toNat := by
      unfold uartFrameFeeds at heq
      omega
    rw [uartStop_of_le hF]
    obtain ⟨p, hp, hchecked, hpending, hid, htime, hhook⟩ :=
      completeFrame_publishes spec { countFraming (!b) u with uartPhase := 0 }
    refine ⟨rfl, p, hp, hchecked, hpending, hid, htime.trans h.rxTime, fun hsub hz => ?_⟩
    obtain ⟨hparam, hdata⟩ := hhook hz
    obtain ⟨-, -, hholds⟩ := h.placed hsub
    exact ⟨hparam.trans h.param, hdata ▸ hholds⟩

/-- One FEED of a UART frame (R200). -/
theorem UartProgress.exec_feed (h : UartProgress s spec n bits u) (hfit : (spec.frameLengthBits.toNat + 7) / 8 ≤ bufBytes)
    (b : Bool) (t : Word) :
    ∃ v, exec (.feed b t) u = .next v ∧ UartAfter s spec (n + 1) (bits ++ uartDataBits n [b]) v := by
  have h' := h.window_respond (shiftWindow b u).window u.producerResp
  refine ⟨_, exec_feed_uart t h.pub h.mode h.active (shiftWindow_isShift b u), UartAfter.respond ?_ okResponse⟩
  by_cases h0 : n % 10 = 0
  · rw [uartStep_of_startBit (h'.phase.trans h0), uartDataBits_cons_of_framing (.inl h0), uartDataBits_nil, List.append_nil]
    exact (h'.startBit h0 b).after
  · have h1 : 1 ≤ n % 10 := Nat.pos_of_ne_zero h0
    by_cases h8 : n % 10 ≤ 8
    · rw [uartStep_of_dataBit (h1.trans_eq h'.phase.symm) (h'.phase.trans_le h8), uartDataBits_cons_of_data h1 h8]
      exact (h'.dataBit hfit h1 h8 b).after
    · have h9 : n % 10 = 9 := by omega
      rw [uartStep_of_stopBit (h'.phase.trans h9), uartDataBits_cons_of_framing (.inr h9), uartDataBits_nil, List.append_nil]
      exact h'.stopBit h9 b

end

/-- R202: FEEDs up to the length of the frame, whatever their bits, from any point of it on. -/
theorem UartProgress.feedAll {s : State} {spec : PatternSpec} (hfit : (spec.frameLengthBits.toNat + 7) / 8 ≤ bufBytes) :
    ∀ (feeds : List (Bool × Word)) (n : Nat) (bits : List Bool) (u : State), UartProgress s spec n bits u →
      n + feeds.length ≤ uartFrameFeeds spec →
      ∃ v, feedAll feeds u = .next v ∧
        UartAfter s spec (n + feeds.length) (bits ++ uartDataBits n (feeds.map Prod.fst)) v
  | [], n, bits, u, h, _ =>
    ⟨u, rfl, by
      simpa only [List.map_nil, List.length_nil, Nat.add_zero, uartDataBits_nil, List.append_nil] using h.after⟩
  | (b, t) :: rest, n, bits, u, h, hle => by
    rw [List.length_cons] at hle
    obtain ⟨v, hexec, hprogress, hscheduled⟩ := h.exec_feed hfit b t
    have hsplit : uartDataBits n [b] ++ uartDataBits (n + 1) (rest.map Prod.fst) =
        uartDataBits n (((b, t) :: rest).map Prod.fst) :=
      (uartDataBits_append _ [b] n).symm
    simp only [Machine.feedAll, hexec]
    rw [← hsplit, ← List.append_assoc, List.length_cons, Nat.add_comm rest.length, ← Nat.add_assoc]
    cases rest with
    | nil => exact ⟨v, rfl, by simpa only [List.map_nil, uartDataBits_nil, List.append_nil] using ⟨hprogress, hscheduled⟩⟩
    | cons c rest =>
      rw [List.length_cons] at hle
      exact UartProgress.feedAll hfit (c :: rest) (n + 1) _ v (hprogress (by omega)) (by rw [List.length_cons]; omega)

end Sys2Proof.Machine

open Sys2Proof Sys2Proof.Machine

/-- Settles O21, by induction on the FEEDs: each keeps the frame's progress, and the last stop bit schedules the publish; the data
bits among FEEDs that are characters are the characters' own. -/
theorem uartFrameRoundTrip : Obligations.UartFrameRoundTrip := by
  intro s i spec feeds hfresh hle
  obtain ⟨u, hrun, hprogress, hscheduled⟩ :=
    UartProgress.feedAll hfresh.frameBytes_le feeds 0 [] s hfresh.uartProgress (by rwa [Nat.zero_add])
  rw [Nat.zero_add, List.nil_append] at hprogress hscheduled
  refine ⟨u, hrun, fun hlt => ?_, fun heq => ?_⟩
  · have h := hprogress hlt
    exact ⟨h.pub, h.mode, h.phase, h.count.trans h.length⟩
  · obtain ⟨hmode, p, hp, hchecked, hpending, hid, htime, hdata⟩ := hscheduled heq
    refine ⟨hmode, p, hp, hchecked, hpending, hid, htime, fun hsub hz => ?_⟩
    obtain ⟨hparam, hholds⟩ := hdata hsub hz
    refine ⟨hparam, fun chars hchars hfeeds => ?_⟩
    rw [← holdsInOrder_lsbFirst_iff, ← uartDataBits_characters chars 0 rfl hchars, ← hfeeds]
    exact hholds
end

section
/-! SUPPORT. Proofs about the events of a publish (42_buffer_pool.md R241). -/

open Sys2Proof Sys2Proof.Machine

/-- Settles O23: a producer turn on a pending record is its next publish event, and the event of an unchecked record is the
overrun count on the byte that `slotValid` reads. -/
theorem overrunCheckIsTheFirstPublishEvent : Obligations.OverrunCheckIsTheFirstPublishEvent := by
  intro s p k rest hpub hunchecked hturns
  rw [step_publish s k rest p hturns hpub, publishEvent_check k p _ hunchecked]
  rfl
end

section
/-! SUPPORT. Proofs about the configuration port (43_configuration.md): REG_WRITE to STAGE and to CMD (R270 to R275), and
CONFIGURE's checks and outcomes (R278 to R289). -/

namespace Sys2Proof

/-! ### The command a word selects (R130, R275) -/

variable {c : Word}

theorem decodeCommand_of_nop (h : c.extractLsb' 0 4 = 0x0) : decodeCommand c = .cmdNop := by
  simp [decodeCommand, h]

theorem decodeCommand_of_open (h : c.extractLsb' 0 4 = 0x1) : decodeCommand c = .cmdOpen := by
  simp [decodeCommand, h]

theorem decodeCommand_of_configure (h : c.extractLsb' 0 4 = 0x2) :
    decodeCommand c = .cmdConfigure (c.extractLsb' 8 8) := by
  simp [decodeCommand, h]

theorem decodeCommand_of_illegal3 (h : c.extractLsb' 0 4 = 0x3) : decodeCommand c = .cmdIllegal3 := by
  simp [decodeCommand, h]

theorem decodeCommand_of_four_le (h : 4 ≤ (c.extractLsb' 0 4).toNat) :
    decodeCommand c =
      if (c.extractLsb' 0 4).toNat < 8 then .cmdIllegal4To7 (c.extractLsb' 0 4) else .cmdIllegal8ToF (c.extractLsb' 0 4) := by
  have hne (op : BitVec 4) (hop : op.toNat < 4) : c.extractLsb' 0 4 ≠ op := by rintro rfl; omega
  rw [decodeCommand, if_neg (hne 0x0 (by decide)), if_neg (hne 0x1 (by decide)), if_neg (hne 0x2 (by decide)),
    if_neg (hne 0x3 (by decide))]

/-- A word of kind 2 and offset 0x000 is a command, selected by its low half (R123, R130). -/
theorem decode_of_regWrite_cmd {w : TransWord} (hk : w.extractLsb' 60 4 = 0x2) (ho : w.extractLsb' 32 12 = 0x000) :
    decode w = .ok (decodeCommand (w.extractLsb' 0 32)) := by
  simp [decode, hk, ho]

/-- C[3:0] is T[3:0]. -/
theorem commandOp_eq {w : TransWord} {op : BitVec 4} (h : op.toNat = w.toNat % 16) :
    (w.extractLsb' 0 32).extractLsb' 0 4 = op := by
  apply BitVec.eq_of_toNat_eq
  rw [extractLsb'_zero_toNat, extractLsb'_zero_toNat]
  omega

/-- C[15:8] is T[15:8]. -/
theorem commandCount_eq {w : TransWord} {count : Byte} (h : count.toNat = w.toNat / 2 ^ 8 % 2 ^ 8) :
    (w.extractLsb' 0 32).extractLsb' 8 8 = count := by
  apply BitVec.eq_of_toNat_eq
  rw [extractLsb'_toNat_eq_div_mod, extractLsb'_zero_toNat]
  omega

/-- Code 0 is HUNT's alone (R33). -/
theorem Mode.code_eq_zero_iff (m : Mode) : m.code = 0 ↔ m = .hunt := by
  cases m <;> decide

namespace Machine

/-! ### `command(C)` (R275) -/

theorem command_of_nop (h : c.extractLsb' 0 4 = 0x0) : command c = fun s => s := by
  funext s
  simp [command, h]

theorem command_of_open (h : c.extractLsb' 0 4 = 0x1) : command c = machineReset := by
  funext s
  simp [command, h]

theorem command_of_configure (h : c.extractLsb' 0 4 = 0x2) : command c = configure (c.extractLsb' 8 8) := by
  funext s
  simp [command, h]

theorem command_of_three_le (h : 3 ≤ (c.extractLsb' 0 4).toNat) : command c = illegalCommand := by
  have hne (op : BitVec 4) (hop : op.toNat < 3) : c.extractLsb' 0 4 ≠ op := by rintro rfl; omega
  funext s
  rw [command, if_neg (hne 0x0 (by decide)), if_neg (hne 0x1 (by decide)), if_neg (hne 0x2 (by decide))]

/-- The three rows of reserved commands have one meaning (R289). -/
theorem exec_reservedCommand {i : Instr} {op : BitVec 4}
    (hi : i = .cmdIllegal3 ∨ i = .cmdIllegal4To7 op ∨ i = .cmdIllegal8ToF op) (s : State) :
    exec i s = runCommand illegalCommand s := by
  rcases hi with rfl | rfl | rfl <;> rfl

/-- The offset of CMD is aligned and names CMD (R61). -/
theorem exec_regWrite_cmd (c : Word) (s : State) : exec (.regWrite 0x000 c) s = runCommand (command c) s := rfl

/-- The decoder's dispatch on C[3:0] and `command(C)` agree. -/
theorem exec_decodeCommand (c : Word) (s : State) : exec (decodeCommand c) s = runCommand (command c) s := by
  by_cases h0 : c.extractLsb' 0 4 = 0x0
  · rw [decodeCommand_of_nop h0, command_of_nop h0]
    rfl
  by_cases h1 : c.extractLsb' 0 4 = 0x1
  · rw [decodeCommand_of_open h1, command_of_open h1]
    rfl
  by_cases h2 : c.extractLsb' 0 4 = 0x2
  · rw [decodeCommand_of_configure h2, command_of_configure h2]
    rfl
  by_cases h3 : c.extractLsb' 0 4 = 0x3
  · rw [decodeCommand_of_illegal3 h3, command_of_three_le (by rw [h3]; decide)]
    rfl
  have h4 : 4 ≤ (c.extractLsb' 0 4).toNat := by bv_omega
  rw [decodeCommand_of_four_le h4, command_of_three_le (by omega)]
  split <;> rfl

/-! ### REG_WRITE to STAGE (R273) -/

theorem exec_regWrite_stage {s : State} {i w : Nat} (v : Word) (hp : s.pub = none) (hn : s.params.npatMax ≤ 120)
    (hi : i < s.params.npatMax) (hw : w < 8) :
    exec (.regWrite (BitVec.ofNat 12 (0x100 + 0x20 * i + 4 * w)) v) s =
      .next (respond .producer okResponse (s.setSdescWord i w v)) := by
  have haligned : (BitVec.ofNat 12 (0x100 + 0x20 * i + 4 * w)).toNat % 4 = 0 := by
    rw [BitVec.toNat_ofNat]
    omega
  rw [exec_regWrite _ v s hp haligned, hostReg_stage _ i w hn hi hw]
  rfl

/-! ### The checks (R279) -/

theorem lengthTooLong_iff (q : PatternSpec) : lengthTooLong q = true ↔ 128 < q.lengthBits.toNat :=
  decide_eq_true_iff

theorem rangeOverflow_iff (q : PatternSpec) :
    rangeOverflow q = true ↔ 1024 < q.startOffset.toNat + (q.frameLengthBits.toNat + 7) / 8 :=
  decide_eq_true_iff

theorem subblockMismatch_iff (q : PatternSpec) :
    subblockMismatch q = true ↔
      0 < q.subBlockBits.toNat ∧ q.subBlockBytes.toNat ≠ (q.subBlockBits.toNat + 7) / 8 :=
  decide_eq_true_iff

theorem badDataState_iff (q : PatternSpec) : badDataState q = true ↔ q.dataState.code = 0 := by
  rw [badDataState, decide_eq_true_eq, Mode.code_eq_zero_iff]

variable (q : PatternSpec)

theorem firstFailingCheck_eq_lengthTooLong_iff : firstFailingCheck q = .lengthTooLong ↔ lengthTooLong q := by
  simp [firstFailingCheck, ite_eq_iff]

theorem firstFailingCheck_eq_rangeOverflow_iff :
    firstFailingCheck q = .rangeOverflow ↔ ¬ lengthTooLong q ∧ rangeOverflow q := by
  simp [firstFailingCheck, ite_eq_iff]

theorem firstFailingCheck_eq_subblockMismatch_iff :
    firstFailingCheck q = .subblockMismatch ↔ ¬ lengthTooLong q ∧ ¬ rangeOverflow q ∧ subblockMismatch q := by
  simp [firstFailingCheck, ite_eq_iff]

theorem firstFailingCheck_eq_badDataState_iff :
    firstFailingCheck q = .badDataState ↔
      ¬ lengthTooLong q ∧ ¬ rangeOverflow q ∧ ¬ subblockMismatch q ∧ badDataState q := by
  simp [firstFailingCheck, ite_eq_iff]

theorem firstFailingCheck_eq_none_iff :
    firstFailingCheck q = .none ↔
      ¬ lengthTooLong q ∧ ¬ rangeOverflow q ∧ ¬ subblockMismatch q ∧ ¬ badDataState q := by
  simp [firstFailingCheck, ite_eq_iff]

theorem firstFailingCheck_ne_countTooLarge : firstFailingCheck q ≠ .countTooLarge := by
  simp [firstFailingCheck, ite_eq_iff]

/-! ### CONFIGURE (R278) -/

theorem exec_cmdConfigure (count : Byte) (s : State) (hp : s.pub = none) :
    exec (.cmdConfigure count) s = .next (respond .producer okResponse (configure count s)) :=
  runCommand_none (configure count) s hp

theorem configure_of_countTooLarge {count : Byte} {s : State} (h : s.params.npatMax < count.toNat) :
    configure count s = rejectConfig .countTooLarge 0 s := by
  rw [configure, if_pos h]

theorem mem_stagedSpecs (s : State) (count : Nat) (q : PatternSpec) :
    q ∈ stagedSpecs s count ↔ ∃ j, j < count ∧ decodeDescriptor (s.sdescWord j) = q := by
  simp [stagedSpecs]

/-- Every descriptor passes (R287). -/
theorem configure_of_passing {count : Byte} {s : State} (hc : count.toNat ≤ s.params.npatMax)
    (hpass : ∀ j, j < count.toNat → firstFailingCheck (decodeDescriptor (s.sdescWord j)) = .none) :
    configure count s = acceptConfig (stagedSpecs s count.toNat) s := by
  have hnone : firstRejected 0 (stagedSpecs s count.toNat) = none := by
    rw [firstRejected_none]
    intro q hq
    obtain ⟨j, hj, rfl⟩ := (mem_stagedSpecs s _ q).1 hq
    exact hpass j hj
  rw [configure, if_neg (Nat.not_lt.2 hc), hnone]

end Machine
end Sys2Proof

open Sys2Proof Sys2Proof.Machine

/-- Settles O35: the offset names STAGE word w of descriptor i, and the law of read after write over STAGE words. -/
theorem stageWriteStoresOneWord : Obligations.StageWriteStoresOneWord := by
  intro s i w v hp ⟨_, hn⟩ hi hw
  exact ⟨(s.setSdescWord i w v).sdesc, exec_regWrite_stage v hp hn hi hw,
    fun j x hx => s.sdescWord_setSdescWord i w v j x hw hx⟩

/-- Settles O41: the word decodes to `decodeCommand` of its low half, whose dispatch on C[3:0] is that of `command(C)`. -/
theorem regWriteToCmdRunsTheCommand : Obligations.RegWriteToCmdRunsTheCommand := by
  intro w hk ho
  rw [decode_of_regWrite_cmd hk ho]
  refine ⟨fun h => ?nop, fun h => ?reset, fun h count hcount => ?configure, fun h => ?illegal3, fun op h h4 h8 => ?illegal4To7,
    fun op h h8 => ?illegal8ToF, fun i s h => ?agrees⟩
  case nop => rw [decodeCommand_of_nop (commandOp_eq h.symm)]
  case reset => rw [decodeCommand_of_open (commandOp_eq h.symm)]
  case configure => rw [decodeCommand_of_configure (commandOp_eq h.symm), commandCount_eq hcount]
  case illegal3 => rw [decodeCommand_of_illegal3 (commandOp_eq h.symm)]
  case illegal4To7 =>
    rw [← commandOp_eq h] at h4 h8 ⊢
    rw [decodeCommand_of_four_le h4, if_pos h8]
  case illegal8ToF =>
    rw [← commandOp_eq h] at h8 ⊢
    rw [decodeCommand_of_four_le (by omega), if_neg (Nat.not_lt.2 h8)]
  case agrees =>
    cases h
    rw [exec_decodeCommand, exec_regWrite_cmd]

/-- Settles O46: the cause of each branch of the checks, and each check's condition as an inequality of numbers. -/
theorem checksAreTriedInOrder : Obligations.ChecksAreTriedInOrder := by
  intro q
  rw [firstFailingCheck_eq_lengthTooLong_iff, firstFailingCheck_eq_rangeOverflow_iff,
    firstFailingCheck_eq_subblockMismatch_iff, firstFailingCheck_eq_badDataState_iff, firstFailingCheck_eq_none_iff,
    lengthTooLong_iff, rangeOverflow_iff, subblockMismatch_iff, badDataState_iff]
  have hsub : ¬ (0 < q.subBlockBits.toNat ∧ q.subBlockBytes.toNat ≠ (q.subBlockBits.toNat + 7) / 8) ↔
      q.subBlockBits.toNat = 0 ∨ q.subBlockBytes.toNat = (q.subBlockBits.toNat + 7) / 8 := by omega
  rw [hsub, Nat.not_lt, Nat.not_lt]
  exact ⟨Iff.rfl, Iff.rfl, Iff.rfl, Iff.rfl, Iff.rfl, firstFailingCheck_ne_countTooLarge q⟩

/-- Settles O49: the table installed is the list of staged descriptors. -/
theorem passingTableIsInstalledWhole : Obligations.PassingTableIsInstalledWhole := by
  intro s count hp hc hpass
  refine ⟨stagedSpecs s count.toNat, stagedSpecs_length s _, fun j hj => stagedSpecs_getElem? s _ j hj, ?_⟩
  rw [exec_cmdConfigure count s hp, configure_of_passing hc hpass]
  rfl

/-- Settles O37: both transactions check the alignment before they name a register. -/
theorem misalignedRegAccessChangesNothing : Obligations.MisalignedRegAccessChangesNothing :=
  ⟨rfl, fun s off v hp ha => ⟨exec_regWrite_misaligned off v s hp ha, exec_regRead_misaligned off s hp ha⟩⟩

/-- Settles O42: NOP is the command without an effect. -/
theorem nopChangesNothing : Obligations.NopChangesNothing :=
  fun s hp => runCommand_none (fun s => s) s hp

/-- Settles O43: the reserved commands have one meaning, whose effect is on `cfgStatus` alone. -/
theorem reservedCommandsOnlySetCfgStatus : Obligations.ReservedCommandsOnlySetCfgStatus :=
  fun s _ _ hp hi => (exec_reservedCommand hi s).trans (runCommand_none illegalCommand s hp)

/-- Settles O47: the count is compared before any descriptor is looked at, and no descriptor below 0 can fail. -/
theorem countTooLargeIsRejected : Obligations.CountTooLargeIsRejected := by
  refine fun s count hp => ⟨fun hlarge => ?_, fun hzero => ?_⟩
  · rw [exec_cmdConfigure count s hp, configure_of_countTooLarge hlarge]
    rfl
  · subst hzero
    rw [exec_cmdConfigure 0 s hp, configure_of_passing (count := 0) (Nat.zero_le _) fun j hj => absurd hj (Nat.not_lt_zero j)]
    rfl
end

section
/-! SUPPORT. Proofs about the encoding (30_encoding.md): the fields of an encoded word (R121 to R132, R145), the transaction each
word decodes to, the row of the opcode table it fits, and the bits that do not matter (R128, R129). -/

namespace Sys2Proof

/-! ### Fields of an encoded word (R145) -/

/-- A field read at the place where it was put. -/
@[simp] theorem extractLsb'_wordField_self {n : Nat} (v : BitVec n) (pos : Nat) (h : pos + n ≤ 64) :
    (wordField v pos).extractLsb' pos n = v := by
  apply BitVec.eq_of_getLsbD_eq
  intro i hi
  simp only [wordField, BitVec.getLsbD_extractLsb', BitVec.getLsbD_shiftLeft, BitVec.getLsbD_setWidth]
  simp [hi, show pos + i < 64 by omega, show i < 64 by omega]

/-- A field does not reach the places beside it. -/
@[simp] theorem extractLsb'_wordField_disjoint {n : Nat} (v : BitVec n) (pos start len : Nat)
    (h : pos + n ≤ start ∨ start + len ≤ pos) : (wordField v pos).extractLsb' start len = 0#len := by
  apply BitVec.eq_of_getLsbD_eq
  intro i hi
  simp only [wordField, BitVec.getLsbD_extractLsb', BitVec.getLsbD_shiftLeft, BitVec.getLsbD_setWidth, hi]
  rcases h with h | h
  · simp [BitVec.getLsbD_of_ge v (start + i - pos) (by omega)]
  · simp [show start + i < pos by omega]

@[simp] theorem wordField_zero {n : Nat} (pos : Nat) : wordField (0#n) pos = 0 := by
  simp [wordField]

/-- One bit of a word as a field of width 1. -/
theorem getLsbD_eq_of_extractLsb' {w : TransWord} {k : Nat} {b : Bool} (h : w.extractLsb' k 1 = BitVec.ofBool b) :
    w.getLsbD k = b := by
  have hbit := congrArg (fun v : BitVec 1 => v.getLsbD 0) h
  simpa using hbit

/-! ### Decoding by fields (R122 to R126) -/

section
variable {w : TransWord}

theorem decode_of_feed (hk : w.extractLsb' 60 4 = 0x1) :
    decode w = .ok (.feed (w.getLsbD 32) (w.extractLsb' 0 32)) := by
  simp [decode, hk]

theorem decode_of_regWrite (hk : w.extractLsb' 60 4 = 0x2) (ho : w.extractLsb' 32 12 ≠ 0) :
    decode w = .ok (.regWrite (w.extractLsb' 32 12) (w.extractLsb' 0 32)) := by
  rw [decode, hk, if_neg ho]
  rfl

theorem decode_of_regRead (hk : w.extractLsb' 60 4 = 0x3) : decode w = .ok (.regRead (w.extractLsb' 32 12)) := by
  simp [decode, hk]

theorem decode_of_poolRead (hk : w.extractLsb' 60 4 = 0x4) :
    decode w = .ok (decodePoolRead (w.extractLsb' 48 2) (w.extractLsb' 32 13)) := by
  simp [decode, hk]

theorem decode_of_poolWrite (hk : w.extractLsb' 60 4 = 0x5) :
    decode w = .ok (decodePoolWrite (w.extractLsb' 48 2) (w.extractLsb' 32 13) (w.extractLsb' 0 8)) := by
  simp [decode, hk]

/-- C[3:0] is T[3:0]. -/
theorem commandOp_field (w : TransWord) : (w.extractLsb' 0 32).extractLsb' 0 4 = w.extractLsb' 0 4 :=
  commandOp_eq (extractLsb'_zero_toNat w 4)

/-- C[15:8] is T[15:8]. -/
theorem commandCount_field (w : TransWord) : (w.extractLsb' 0 32).extractLsb' 8 8 = w.extractLsb' 8 8 :=
  commandCount_eq (extractLsb'_toNat_eq_div_mod w 8 8)

end

/-! ### Decoding what was encoded (R121 to R132) -/

theorem decode_encodeFeed (b : Bool) (t : Word) : decode (encodeFeed b t) = .ok (.feed b t) := by
  have hb : (encodeFeed b t).extractLsb' 32 1 = BitVec.ofBool b := by
    simp [encodeFeed, BitVec.extractLsb'_or]
  have ht : (encodeFeed b t).extractLsb' 0 32 = t := by
    simp [encodeFeed, BitVec.extractLsb'_or]
  rw [decode_of_feed (encodeFeed_kind b t), getLsbD_eq_of_extractLsb' hb, ht]

theorem decode_encodeRegWrite (off : BitVec 12) (v : Word) (hoff : off ≠ 0) :
    decode (encodeRegWrite off v) = .ok (.regWrite off v) := by
  have ho : (encodeRegWrite off v).extractLsb' 32 12 = off := by
    simp [encodeRegWrite, BitVec.extractLsb'_or]
  have hv : (encodeRegWrite off v).extractLsb' 0 32 = v := by
    simp [encodeRegWrite, BitVec.extractLsb'_or]
  rw [decode_of_regWrite (encodeRegWrite_kind off v) (by rwa [ho]), ho, hv]

theorem decode_encodeRegRead (off : BitVec 12) : decode (encodeRegRead off) = .ok (.regRead off) := by
  have ho : (encodeRegRead off).extractLsb' 32 12 = off := by
    simp [encodeRegRead, BitVec.extractLsb'_or]
  rw [decode_of_regRead (encodeRegRead_kind off), ho]

theorem decode_encodePoolRead (sz : BitVec 2) (addr : BitVec 13) :
    decode (encodePoolRead sz addr) = .ok (decodePoolRead sz addr) := by
  have hs : (encodePoolRead sz addr).extractLsb' 48 2 = sz := by
    simp [encodePoolRead, BitVec.extractLsb'_or]
  have ha : (encodePoolRead sz addr).extractLsb' 32 13 = addr := by
    simp [encodePoolRead, BitVec.extractLsb'_or]
  rw [decode_of_poolRead (encodePoolRead_kind sz addr), hs, ha]

theorem decode_encodePoolWrite (sz : BitVec 2) (addr : BitVec 13) (v : Byte) :
    decode (encodePoolWrite sz addr v) = .ok (decodePoolWrite sz addr v) := by
  have hs : (encodePoolWrite sz addr v).extractLsb' 48 2 = sz := by
    simp [encodePoolWrite, BitVec.extractLsb'_or]
  have ha : (encodePoolWrite sz addr v).extractLsb' 32 13 = addr := by
    simp [encodePoolWrite, BitVec.extractLsb'_or]
  have hv : (encodePoolWrite sz addr v).extractLsb' 0 8 = v := by
    simp [encodePoolWrite, BitVec.extractLsb'_or]
  rw [decode_of_poolWrite (encodePoolWrite_kind sz addr v), hs, ha, hv]

/-- The command word of `encodeCommand count op`, by the two fields that the decoder reads of it. -/
theorem decode_encodeCommand (count : Byte) (op : BitVec 4) :
    ∃ c : Word, c.extractLsb' 0 4 = op ∧ c.extractLsb' 8 8 = count ∧
      decode (encodeCommand count op) = .ok (decodeCommand c) := by
  have ho : (encodeCommand count op).extractLsb' 32 12 = 0 := by
    simp [encodeCommand, BitVec.extractLsb'_or]
  refine ⟨_, ?_, ?_, decode_of_regWrite_cmd (encodeCommand_kind count op) ho⟩
  · rw [commandOp_field]
    simp [encodeCommand, BitVec.extractLsb'_or]
  · rw [commandCount_field]
    simp [encodeCommand, BitVec.extractLsb'_or]


/-! ### What a decodable word is (R122 to R126) -/

/-- Every decodable word, by its kind. -/
theorem decode_cases {w : TransWord} {i : Instr} (h : decode w = .ok i) :
    (w.extractLsb' 60 4 = 0x1 ∧ i = .feed (w.getLsbD 32) (w.extractLsb' 0 32)) ∨
    (w.extractLsb' 60 4 = 0x2 ∧ w.extractLsb' 32 12 = 0 ∧ i = decodeCommand (w.extractLsb' 0 32)) ∨
    (w.extractLsb' 60 4 = 0x2 ∧ w.extractLsb' 32 12 ≠ 0 ∧
      i = .regWrite (w.extractLsb' 32 12) (w.extractLsb' 0 32)) ∨
    (w.extractLsb' 60 4 = 0x3 ∧ i = .regRead (w.extractLsb' 32 12)) ∨
    (w.extractLsb' 60 4 = 0x4 ∧ i = decodePoolRead (w.extractLsb' 48 2) (w.extractLsb' 32 13)) ∨
    (w.extractLsb' 60 4 = 0x5 ∧ i = decodePoolWrite (w.extractLsb' 48 2) (w.extractLsb' 32 13) (w.extractLsb' 0 8)) := by
  have hk : ¬ HasReservedKind w := fun hr => by
    rw [decode_of_hasReservedKind w hr] at h
    cases h
  rw [not_hasReservedKind_iff] at hk
  simp only [List.mem_cons, List.not_mem_nil, or_false] at hk
  rcases hk with hk | hk | hk | hk | hk
  · rw [decode_of_feed hk] at h
    cases h
    exact .inl ⟨hk, rfl⟩
  · by_cases ho : w.extractLsb' 32 12 = 0
    · rw [decode_of_regWrite_cmd hk ho] at h
      cases h
      exact .inr (.inl ⟨hk, ho, rfl⟩)
    · rw [decode_of_regWrite hk ho] at h
      cases h
      exact .inr (.inr (.inl ⟨hk, ho, rfl⟩))
  · rw [decode_of_regRead hk] at h
    cases h
    exact .inr (.inr (.inr (.inl ⟨hk, rfl⟩)))
  · rw [decode_of_poolRead hk] at h
    cases h
    exact .inr (.inr (.inr (.inr (.inl ⟨hk, rfl⟩))))
  · rw [decode_of_poolWrite hk] at h
    cases h
    exact .inr (.inr (.inr (.inr (.inr ⟨hk, rfl⟩))))

/-! ### The rows of the opcode table -/

/-- A field that a row's mask looks at whole is the pattern's. -/
theorem OpcodeRow.fits_field {q : OpcodeRow} {w : TransWord} (h : q.fits w = true) {start len : Nat}
    (hm : q.mask.extractLsb' start len = BitVec.allOnes len) :
    w.extractLsb' start len = q.pattern.extractLsb' start len := by
  have hand : w &&& q.mask = q.pattern := eq_of_beq h
  rw [← hand, BitVec.extractLsb'_and, hm, BitVec.and_allOnes]

/-- What a mask of one field leaves of a word. -/
theorem and_wordField_allOnes (w : TransWord) (pos n : Nat) :
    w &&& wordField (BitVec.allOnes n) pos = wordField (w.extractLsb' pos n) pos := by
  apply BitVec.eq_of_getLsbD_eq
  intro i hi
  simp only [wordField, BitVec.getLsbD_and, BitVec.getLsbD_shiftLeft, BitVec.getLsbD_setWidth, BitVec.getLsbD_allOnes,
    BitVec.getLsbD_extractLsb', hi, decide_true, Bool.true_and]
  by_cases hp : i < pos
  · simp [hp]
  · simp [hp, show pos + (i - pos) = i by omega, show i - pos < 64 by omega, Bool.and_comm]

/-- A word fits a row whose mask looks at the kind alone. -/
theorem fits_of_kind {w : TransWord} {k : BitVec 4} (hk : w.extractLsb' 60 4 = k) (name : String) :
    OpcodeRow.fits ⟨name, wordField k 60, wordField (BitVec.allOnes 4) 60⟩ w = true := by
  rw [OpcodeRow.fits, and_wordField_allOnes, hk]
  exact beq_self_eq_true _

/-- A word fits a row whose mask looks at the kind and one further field. -/
theorem fits_of_kind_field {w : TransWord} {k : BitVec 4} (hk : w.extractLsb' 60 4 = k) {pos n : Nat} {f : BitVec n}
    (hf : w.extractLsb' pos n = f) (name : String) :
    OpcodeRow.fits ⟨name, wordField k 60 ||| wordField f pos,
      wordField (BitVec.allOnes 4) 60 ||| wordField (BitVec.allOnes n) pos⟩ w = true := by
  rw [OpcodeRow.fits, BitVec.and_or_distrib_left, and_wordField_allOnes, and_wordField_allOnes, hk, hf]
  exact beq_self_eq_true _

/-- A word fits a row whose mask looks at the kind, the offset and a field of the command word. -/
theorem fits_of_command {w : TransWord} (hk : w.extractLsb' 60 4 = 0x2) (ho : w.extractLsb' 32 12 = 0) {pos n : Nat}
    {f : BitVec n} (hf : w.extractLsb' pos n = f) (name : String) :
    OpcodeRow.fits ⟨name, wordField 0x2#4 60 ||| wordField f pos,
      wordField (BitVec.allOnes 4) 60 ||| wordField (BitVec.allOnes 12) 32 ||| wordField (BitVec.allOnes n) pos⟩ w
      = true := by
  have hoff : wordField (w.extractLsb' 32 12) 32 = 0 := ho ▸ wordField_zero 32
  rw [OpcodeRow.fits, BitVec.and_or_distrib_left, BitVec.and_or_distrib_left, and_wordField_allOnes,
    and_wordField_allOnes, and_wordField_allOnes, hk, hoff, hf]
  exact beq_self_eq_true _

/-- Rows of the table that look at different bits tell the words apart by a field they fix, or one is the row of REG_WRITE or
of POOL_WRITE_BADSZ and the other's mask is the more specific one. -/
theorem opcodeRows_nested : ∀ r ∈ opcodeRows, ∀ q ∈ opcodeRows,
    r.asSpecificAs q = true ∨ r.pattern &&& q.mask ≠ q.pattern &&& r.mask ∨
    (r.mnemonic = "REG_WRITE" ∧ q.mask.extractLsb' 32 12 = BitVec.allOnes 12 ∧ q.pattern.extractLsb' 32 12 = 0) ∨
    (r.mnemonic = "POOL_WRITE_BADSZ" ∧ q.mask.extractLsb' 48 2 = BitVec.allOnes 2 ∧
      q.pattern.extractLsb' 48 2 = 0) := by
  decide +kernel

/-- A row that a word fits is its most specific one, unless the word is of a more specific row within REG_WRITE or
POOL_WRITE_BADSZ. -/
theorem OpcodeRow.mostSpecific {r : OpcodeRow} {w : TransWord} (hr : r ∈ opcodeRows) (hfit : r.fits w = true)
    (hreg : r.mnemonic = "REG_WRITE" → w.extractLsb' 32 12 ≠ 0)
    (hpool : r.mnemonic = "POOL_WRITE_BADSZ" → w.extractLsb' 48 2 ≠ 0) :
    ∀ q ∈ opcodeRows, q.fits w = true → r.asSpecificAs q = true := by
  intro q hq hqfit
  rcases opcodeRows_nested r hr q hq with h | h | ⟨hn, hm, hz⟩ | ⟨hn, hm, hz⟩
  · exact h
  · have hrw : w &&& r.mask = r.pattern := eq_of_beq hfit
    have hqw : w &&& q.mask = q.pattern := eq_of_beq hqfit
    refine absurd ?_ h
    rw [← hrw, ← hqw, BitVec.and_assoc, BitVec.and_assoc, BitVec.and_comm r.mask]
  · exact absurd ((fits_field hqfit hm).trans hz) (hreg hn)
  · exact absurd ((fits_field hqfit hm).trans hz) (hpool hn)

/-- The instruction is well-formed and the word fits the row of its mnemonic, as its most specific row. -/
def IsOfItsRow (w : TransWord) (i : Instr) : Prop :=
  i.wellFormed = true ∧
    ∃ r ∈ opcodeRows, r.mnemonic = i.mnemonic ∧ r.fits w = true ∧
      ∀ q ∈ opcodeRows, q.fits w = true → r.asSpecificAs q = true

/-- A word that fits a row other than REG_WRITE's and POOL_WRITE_BADSZ's is of that row. -/
theorem IsOfItsRow.of_fits {w : TransWord} {i : Instr} (hwf : i.wellFormed = true) (r : OpcodeRow)
    (hr : r ∈ opcodeRows ∧ r.mnemonic ≠ "REG_WRITE" ∧ r.mnemonic ≠ "POOL_WRITE_BADSZ") (hname : r.mnemonic = i.mnemonic)
    (hfit : r.fits w = true) : IsOfItsRow w i :=
  ⟨hwf, r, hr.1, hname, hfit, OpcodeRow.mostSpecific hr.1 hfit (absurd · hr.2.1) (absurd · hr.2.2)⟩

section
variable {w : TransWord}

theorem isOfItsRow_regWrite (hk : w.extractLsb' 60 4 = 0x2) (ho : w.extractLsb' 32 12 ≠ 0) :
    IsOfItsRow w (.regWrite (w.extractLsb' 32 12) (w.extractLsb' 0 32)) :=
  ⟨decide_eq_true ho, ⟨"REG_WRITE", 0x2000000000000000, 0xF000000000000000⟩, by decide, rfl, fits_of_kind hk _,
    OpcodeRow.mostSpecific (by decide) (fits_of_kind hk _) (fun _ => ho) (fun h => absurd h (by decide))⟩

theorem isOfItsRow_decodeCommand (hk : w.extractLsb' 60 4 = 0x2) (ho : w.extractLsb' 32 12 = 0) :
    IsOfItsRow w (decodeCommand (w.extractLsb' 0 32)) := by
  have hfits {pos n : Nat} {f : BitVec n} := fits_of_command hk ho (pos := pos) (n := n) (f := f)
  by_cases h0 : w.extractLsb' 0 4 = 0x0
  · rw [decodeCommand_of_nop ((commandOp_field w).trans h0)]
    exact .of_fits rfl ⟨"CMD_NOP", 0x2000000000000000, 0xF0000FFF0000000F⟩ (by decide) rfl (hfits h0 _)
  by_cases h1 : w.extractLsb' 0 4 = 0x1
  · rw [decodeCommand_of_open ((commandOp_field w).trans h1)]
    exact .of_fits rfl ⟨"CMD_OPEN", 0x2000000000000001, 0xF0000FFF0000000F⟩ (by decide) rfl (hfits h1 _)
  by_cases h2 : w.extractLsb' 0 4 = 0x2
  · rw [decodeCommand_of_configure ((commandOp_field w).trans h2)]
    exact .of_fits rfl ⟨"CMD_CONFIGURE", 0x2000000000000002, 0xF0000FFF0000000F⟩ (by decide) rfl (hfits h2 _)
  by_cases h3 : w.extractLsb' 0 4 = 0x3
  · rw [decodeCommand_of_illegal3 ((commandOp_field w).trans h3)]
    exact .of_fits rfl ⟨"CMD_ILLEGAL_3", 0x2000000000000003, 0xF0000FFF0000000F⟩ (by decide) rfl (hfits h3 _)
  have h4 : 4 ≤ (w.extractLsb' 0 4).toNat := by bv_omega
  rw [decodeCommand_of_four_le (by rwa [commandOp_field]), commandOp_field]
  have hop := extractLsb'_zero_toNat w 4
  split
  · rename_i h8
    have hf : w.extractLsb' 2 2 = 1 := by
      apply BitVec.eq_of_toNat_eq
      rw [extractLsb'_toNat_eq_div_mod]
      show _ = 1
      omega
    exact .of_fits (decide_eq_true ⟨h4, h8⟩) ⟨"CMD_ILLEGAL_4_7", 0x2000000000000004, 0xF0000FFF0000000C⟩ (by decide) rfl
      (hfits hf _)
  · have hf : w.extractLsb' 3 1 = 1 := by
      apply BitVec.eq_of_toNat_eq
      rw [extractLsb'_toNat_eq_div_mod]
      show _ = 1
      omega
    exact .of_fits (decide_eq_true (by omega)) ⟨"CMD_ILLEGAL_8_F", 0x2000000000000008, 0xF0000FFF00000008⟩ (by decide)
      rfl (hfits hf _)

theorem isOfItsRow_decodePoolRead (hk : w.extractLsb' 60 4 = 0x4) :
    IsOfItsRow w (decodePoolRead (w.extractLsb' 48 2) (w.extractLsb' 32 13)) := by
  have hfits {f : BitVec 2} := fits_of_kind_field hk (pos := 48) (f := f)
  unfold decodePoolRead
  split
  · rename_i h
    exact .of_fits rfl ⟨"POOL_READ8", 0x4000000000000000, 0xF003000000000000⟩ (by decide) rfl (hfits h _)
  split
  · rename_i h
    exact .of_fits rfl ⟨"POOL_READ16", 0x4001000000000000, 0xF003000000000000⟩ (by decide) rfl (hfits h _)
  split
  · rename_i h
    exact .of_fits rfl ⟨"POOL_READ32", 0x4002000000000000, 0xF003000000000000⟩ (by decide) rfl (hfits h _)
  · have h : w.extractLsb' 48 2 = 3 := by bv_omega
    exact .of_fits rfl ⟨"POOL_READ_SZ3", 0x4003000000000000, 0xF003000000000000⟩ (by decide) rfl (hfits h _)

theorem isOfItsRow_decodePoolWrite (hk : w.extractLsb' 60 4 = 0x5) :
    IsOfItsRow w (decodePoolWrite (w.extractLsb' 48 2) (w.extractLsb' 32 13) (w.extractLsb' 0 8)) := by
  unfold decodePoolWrite
  split
  · rename_i h
    exact .of_fits rfl ⟨"POOL_WRITE8", 0x5000000000000000, 0xF003000000000000⟩ (by decide) rfl
      (fits_of_kind_field hk h _)
  · rename_i h
    exact ⟨decide_eq_true h, ⟨"POOL_WRITE_BADSZ", 0x5000000000000000, 0xF000000000000000⟩, by decide, rfl,
      fits_of_kind hk _,
      OpcodeRow.mostSpecific (by decide) (fits_of_kind hk _) (fun h => absurd h (by decide)) (fun _ => h)⟩

end

/-! ### The bits that do not matter (R128, R129) -/

section
variable {w w' : TransWord}

/-- A field within the bits in which two words agree. -/
theorem extractLsb'_eq_of_and_eq {m : TransWord} (h : w &&& m = w' &&& m) {start len : Nat}
    (hm : m.extractLsb' start len = BitVec.allOnes len) : w.extractLsb' start len = w'.extractLsb' start len := by
  have hfield := congrArg (BitVec.extractLsb' start len) h
  rwa [BitVec.extractLsb'_and, BitVec.extractLsb'_and, hm, BitVec.and_allOnes, BitVec.and_allOnes] at hfield

/-- A field within a mask has no bit outside it. -/
theorem wordField_and_not {m : TransWord} {n : Nat} (v : BitVec n) (pos : Nat)
    (hm : m.extractLsb' pos n = BitVec.allOnes n) : wordField v pos &&& ~~~ m = 0 := by
  apply BitVec.eq_of_getLsbD_eq
  intro i hi
  have hbit := congrArg (BitVec.getLsbD · (i - pos)) hm
  simp only [BitVec.getLsbD_extractLsb', BitVec.getLsbD_allOnes] at hbit
  simp only [wordField, BitVec.getLsbD_and, BitVec.getLsbD_shiftLeft, BitVec.getLsbD_setWidth, BitVec.getLsbD_not]
  by_cases hp : i < pos
  · simp [hp]
  · by_cases hn : i - pos < n
    · rw [show pos + (i - pos) = i by omega] at hbit
      simp_all
    · simp [BitVec.getLsbD_of_ge v (i - pos) (by omega)]

end


/-- A bit among those in which two words agree. -/
theorem getLsbD_eq_of_and_eq {w w' : TransWord} {m : TransWord} (h : w &&& m = w' &&& m) {k : Nat}
    (hm : m.getLsbD k = true) : w.getLsbD k = w'.getLsbD k := by
  have hbit := congrArg (BitVec.getLsbD · k) h
  simpa [hm] using hbit

/-- A command depends on C[3:0], and on C[15:8] if it is CONFIGURE. -/
theorem decodeCommand_congr {c c' : Word} (hop : c.extractLsb' 0 4 = c'.extractLsb' 0 4)
    (hcount : c.extractLsb' 0 4 = 0x2 → c.extractLsb' 8 8 = c'.extractLsb' 8 8) : decodeCommand c = decodeCommand c' := by
  by_cases h2 : c.extractLsb' 0 4 = 0x2
  · rw [decodeCommand_of_configure h2, decodeCommand_of_configure (hop ▸ h2), hcount h2]
  · simp only [decodeCommand, ← hop, if_neg h2]

namespace Machine

/-- A command's word is read for its kind, offset and op, and CONFIGURE's for its count as well. -/
theorem usedBits_decodeCommand (c : Word) :
    usedBits (decodeCommand c) = if c.extractLsb' 0 4 = 0x2 then 0xF0000FFF0000FF0F else 0xF0000FFF0000000F := by
  by_cases h2 : c.extractLsb' 0 4 = 0x2
  · rw [decodeCommand_of_configure h2, if_pos h2]
    rfl
  · rw [if_neg h2]
    unfold decodeCommand
    dsimp only
    split_ifs <;> rfl

/-- A POOL_READ's word is read for its kind, size code and address. -/
theorem usedBits_decodePoolRead (sz : BitVec 2) (addr : BitVec 13) :
    usedBits (decodePoolRead sz addr) = 0xF0031FFF00000000 := by
  unfold decodePoolRead
  split_ifs <;> rfl

/-- A POOL_WRITE's word is read for its byte as well. -/
theorem usedBits_decodePoolWrite (sz : BitVec 2) (addr : BitVec 13) (v : Byte) :
    usedBits (decodePoolWrite sz addr v) = 0xF0031FFF000000FF := by
  unfold decodePoolWrite
  split_ifs <;> rfl

/-- Words that agree in the bits read of one of them are the same transaction. -/
theorem decode_of_usedBits_eq {w w' : TransWord} {i : Instr} (h : decode w = .ok i)
    (hw : w &&& usedBits i = w' &&& usedBits i) : decode w' = .ok i := by
  have field {m : TransWord} (hm : usedBits i = m) {start len : Nat}
      (hall : m.extractLsb' start len = BitVec.allOnes len) : w.extractLsb' start len = w'.extractLsb' start len :=
    extractLsb'_eq_of_and_eq hw (hm ▸ hall)
  rcases decode_cases h with ⟨hk, rfl⟩ | ⟨hk, ho, rfl⟩ | ⟨hk, ho, rfl⟩ | ⟨hk, rfl⟩ | ⟨hk, rfl⟩ | ⟨hk, rfl⟩
  · have hm : usedBits (.feed (w.getLsbD 32) (w.extractLsb' 0 32)) = 0xF0000001FFFFFFFF := rfl
    have hkind := field hm (start := 60) (len := 4) (by decide)
    have ht := field hm (start := 0) (len := 32) (by decide)
    rw [decode_of_feed (hkind ▸ hk), ht, getLsbD_eq_of_and_eq hw (k := 32) (by rw [hm]; decide)]
  · have hm := usedBits_decodeCommand (w.extractLsb' 0 32)
    have hkind := field hm (start := 60) (len := 4) (by split <;> decide)
    have hoff := field hm (start := 32) (len := 12) (by split <;> decide)
    have hop := field hm (start := 0) (len := 4) (by split <;> decide)
    have hcount (h2 : w.extractLsb' 0 4 = 0x2) := field (hm.trans (if_pos ((commandOp_field w).trans h2)))
      (start := 8) (len := 8) (by decide)
    rw [decode_of_regWrite_cmd (hkind ▸ hk) (hoff ▸ ho)]
    exact congrArg _ (decodeCommand_congr (by rw [commandOp_field, commandOp_field, hop]) fun h2 => by
      rw [commandCount_field, commandCount_field, hcount (by rwa [hop, ← commandOp_field])])
  · have hm : usedBits (.regWrite (w.extractLsb' 32 12) (w.extractLsb' 0 32)) = 0xF0000FFFFFFFFFFF := rfl
    have hkind := field hm (start := 60) (len := 4) (by decide)
    have hoff := field hm (start := 32) (len := 12) (by decide)
    have hv := field hm (start := 0) (len := 32) (by decide)
    rw [decode_of_regWrite (hkind ▸ hk) (hoff ▸ ho), hoff, hv]
  · have hm : usedBits (.regRead (w.extractLsb' 32 12)) = 0xF0000FFF00000000 := rfl
    have hkind := field hm (start := 60) (len := 4) (by decide)
    have hoff := field hm (start := 32) (len := 12) (by decide)
    rw [decode_of_regRead (hkind ▸ hk), hoff]
  · have hm := usedBits_decodePoolRead (w.extractLsb' 48 2) (w.extractLsb' 32 13)
    have hkind := field hm (start := 60) (len := 4) (by decide)
    have hsz := field hm (start := 48) (len := 2) (by decide)
    have ha := field hm (start := 32) (len := 13) (by decide)
    rw [decode_of_poolRead (hkind ▸ hk), hsz, ha]
  · have hm := usedBits_decodePoolWrite (w.extractLsb' 48 2) (w.extractLsb' 32 13) (w.extractLsb' 0 8)
    have hkind := field hm (start := 60) (len := 4) (by decide)
    have hsz := field hm (start := 48) (len := 2) (by decide)
    have ha := field hm (start := 32) (len := 13) (by decide)
    have hv := field hm (start := 0) (len := 8) (by decide)
    rw [decode_of_poolWrite (hkind ▸ hk), hsz, ha, hv]

/-- Two parts of a word within a mask. -/
theorem or_and_not_eq_zero {a b m : TransWord} (ha : a &&& ~~~ m = 0) (hb : b &&& ~~~ m = 0) :
    (a ||| b) &&& ~~~ m = 0 := by
  rw [BitVec.and_or_distrib_right, ha, hb]
  rfl

theorem encodeCommand_and_not {m : TransWord} (count : Byte) (op : BitVec 4)
    (hk : m.extractLsb' 60 4 = BitVec.allOnes 4) (hcount : wordField count 8 &&& ~~~ m = 0)
    (hop : m.extractLsb' 0 4 = BitVec.allOnes 4) : encodeCommand count op &&& ~~~ m = 0 :=
  or_and_not_eq_zero (or_and_not_eq_zero (wordField_and_not _ 60 hk) hcount) (wordField_and_not op 0 hop)

/-- The encoder writes no count but CONFIGURE's. -/
theorem noCount_and_not (m : TransWord) : wordField (0#8) 8 &&& ~~~ m = 0 := by
  simp

theorem encodePoolRead_and_not (sz : BitVec 2) (addr : BitVec 13) :
    encodePoolRead sz addr &&& ~~~ 0xF0031FFF00000000 = 0 :=
  or_and_not_eq_zero (or_and_not_eq_zero (wordField_and_not _ 60 (by decide)) (wordField_and_not sz 48 (by decide)))
    (wordField_and_not addr 32 (by decide))

theorem encodePoolWrite_and_not (sz : BitVec 2) (addr : BitVec 13) (v : Byte) :
    encodePoolWrite sz addr v &&& ~~~ 0xF0031FFF000000FF = 0 :=
  or_and_not_eq_zero (or_and_not_eq_zero
    (or_and_not_eq_zero (wordField_and_not _ 60 (by decide)) (wordField_and_not sz 48 (by decide))) (wordField_and_not addr 32 (by decide)))
    (wordField_and_not v 0 (by decide))

/-- The encoder writes no bit but those that are read. -/
theorem encode_and_not_usedBits (i : Instr) : encode i &&& ~~~ usedBits i = 0 := by
  cases i <;> rw [usedBits]
  case feed b t =>
    exact or_and_not_eq_zero (or_and_not_eq_zero (wordField_and_not _ 60 (by decide))
      (wordField_and_not (BitVec.ofBool b) 32 (by decide))) (wordField_and_not t 0 (by decide))
  case regWrite off v =>
    exact or_and_not_eq_zero (or_and_not_eq_zero (wordField_and_not _ 60 (by decide))
      (wordField_and_not off 32 (by decide))) (wordField_and_not v 0 (by decide))
  case regRead off =>
    exact or_and_not_eq_zero (wordField_and_not _ 60 (by decide)) (wordField_and_not off 32 (by decide))
  case cmdNop => exact encodeCommand_and_not 0 0x0 (by decide) (noCount_and_not _) (by decide)
  case cmdOpen => exact encodeCommand_and_not 0 0x1 (by decide) (noCount_and_not _) (by decide)
  case cmdConfigure count =>
    exact encodeCommand_and_not count 0x2 (by decide) (wordField_and_not count 8 (by decide)) (by decide)
  case cmdIllegal3 => exact encodeCommand_and_not 0 0x3 (by decide) (noCount_and_not _) (by decide)
  case cmdIllegal4To7 op => exact encodeCommand_and_not 0 op (by decide) (noCount_and_not _) (by decide)
  case cmdIllegal8ToF op => exact encodeCommand_and_not 0 op (by decide) (noCount_and_not _) (by decide)
  case poolRead8 addr => exact encodePoolRead_and_not 0 addr
  case poolRead16 addr => exact encodePoolRead_and_not 1 addr
  case poolRead32 addr => exact encodePoolRead_and_not 2 addr
  case poolReadSz3 addr => exact encodePoolRead_and_not 3 addr
  case poolWrite8 addr v => exact encodePoolWrite_and_not 0 addr v
  case poolWriteBadSz sz addr v => exact encodePoolWrite_and_not sz addr v

end Machine

end Sys2Proof

open Sys2Proof Sys2Proof.Machine

/-- Settles O1: each constructor's word has its operands at their places, and a fixed field at its value. -/
theorem decodeInvertsEncode : Obligations.DecodeInvertsEncode := by
  intro i hwf
  cases i with
  | feed b t => exact decode_encodeFeed b t
  | regWrite off v => exact decode_encodeRegWrite off v (of_decide_eq_true hwf)
  | cmdNop =>
    obtain ⟨c, hop, -, h⟩ := decode_encodeCommand 0 0x0
    exact h.trans (by rw [decodeCommand_of_nop hop])
  | cmdOpen =>
    obtain ⟨c, hop, -, h⟩ := decode_encodeCommand 0 0x1
    exact h.trans (by rw [decodeCommand_of_open hop])
  | cmdConfigure count =>
    obtain ⟨c, hop, hcount, h⟩ := decode_encodeCommand count 0x2
    exact h.trans (by rw [decodeCommand_of_configure hop, hcount])
  | cmdIllegal3 =>
    obtain ⟨c, hop, -, h⟩ := decode_encodeCommand 0 0x3
    exact h.trans (by rw [decodeCommand_of_illegal3 hop])
  | cmdIllegal4To7 op =>
    obtain ⟨h4, h8⟩ := of_decide_eq_true hwf
    obtain ⟨c, rfl, -, h⟩ := decode_encodeCommand 0 op
    exact h.trans (by rw [decodeCommand_of_four_le h4, if_pos h8])
  | cmdIllegal8ToF op =>
    have h8 : 8 ≤ op.toNat := of_decide_eq_true hwf
    obtain ⟨c, rfl, -, h⟩ := decode_encodeCommand 0 op
    exact h.trans (by rw [decodeCommand_of_four_le (by omega), if_neg (Nat.not_lt.2 h8)])
  | regRead off => exact decode_encodeRegRead off
  | poolRead8 addr => exact decode_encodePoolRead 0 addr
  | poolRead16 addr => exact decode_encodePoolRead 1 addr
  | poolRead32 addr => exact decode_encodePoolRead 2 addr
  | poolReadSz3 addr => exact decode_encodePoolRead 3 addr
  | poolWrite8 addr v => exact decode_encodePoolWrite 0 addr v
  | poolWriteBadSz sz addr v =>
    have hsz : sz ≠ 0 := of_decide_eq_true hwf
    exact (decode_encodePoolWrite sz addr v).trans (by rw [decodePoolWrite, if_neg hsz])

/-- Settles O2: each branch of the decoder gives a word of the row of its mnemonic, by the fields that the row's mask looks at. -/
theorem decodePicksTheMostSpecificRow : Obligations.DecodePicksTheMostSpecificRow := by
  intro w i h
  rcases decode_cases h with ⟨hk, rfl⟩ | ⟨hk, ho, rfl⟩ | ⟨hk, ho, rfl⟩ | ⟨hk, rfl⟩ | ⟨hk, rfl⟩ | ⟨hk, rfl⟩
  · exact IsOfItsRow.of_fits rfl ⟨"FEED", 0x1000000000000000, 0xF000000000000000⟩ (by decide) rfl (fits_of_kind hk _)
  · exact isOfItsRow_decodeCommand hk ho
  · exact isOfItsRow_regWrite hk ho
  · exact IsOfItsRow.of_fits rfl ⟨"REG_READ", 0x3000000000000000, 0xF000000000000000⟩ (by decide) rfl (fits_of_kind hk _)
  · exact isOfItsRow_decodePoolRead hk
  · exact isOfItsRow_decodePoolWrite hk

/-- Settles O3: the decoder reads fields within the used bits, and the encoder writes fields within them. -/
theorem reservedBitsAreIgnoredAndWrittenZero : Obligations.ReservedBitsAreIgnoredAndWrittenZero :=
  ⟨fun _ _ _ => decode_of_usedBits_eq, fun i _ => encode_and_not_usedBits i⟩

/-- Settles O5: each word of the table is the encoding of a well-formed transaction, which decoding inverts. -/
theorem encodedExamplesOfTheSpec : Obligations.EncodedExamplesOfTheSpec := by
  intro p hp
  have h : p.2.wellFormed = true ∧ encode p.2 = p.1 := by
    revert p hp
    decide
  exact ⟨h.2 ▸ decodeInvertsEncode p.2 h.1, h.2⟩
end

section
/-! SUPPORT. The engine's invariant (10_state.md R52): it holds at reset, every step keeps it, and no run from it meets a fault. -/

namespace Sys2Proof.Machine

/-! ### Entries that pass every check (R282 to R285) -/

/-- What the checks say of an entry, as inequalities of numbers. -/
theorem firstFailingCheck_none_bounds {spec : PatternSpec} (h : firstFailingCheck spec = .none) :
    spec.startOffset.toNat + (spec.frameLengthBits.toNat + 7) / 8 ≤ 1024 ∧
    (0 < spec.subBlockBits.toNat → spec.subBlockBytes.toNat = (spec.subBlockBits.toNat + 7) / 8) ∧
    spec.dataState ≠ .hunt := by
  obtain ⟨-, hrange, hsub, hstate⟩ := (firstFailingCheck_eq_none_iff spec).1 h
  rw [rangeOverflow_iff] at hrange
  rw [subblockMismatch_iff] at hsub
  exact ⟨by omega, by omega, fun hd => hstate (decide_eq_true hd)⟩

/-! ### Where the next payload bit goes (R191, R194) -/

/-- n payload bits of the entry's frame are placed: q whole sub-blocks lie behind `base`, the rest is counted by `subCount`. -/
def PlacedCount (spec : PatternSpec) (n : Nat) (s : State) : Prop :=
  (spec.subBlockBits = 0 → s.base = spec.startOffset ∧ s.subCount.toNat = n) ∧
  (spec.subBlockBits ≠ 0 → ∃ q,
    s.base.toNat = spec.startOffset.toNat + q * spec.subBlockBytes.toNat ∧
    n = q * spec.subBlockBits.toNat + s.subCount.toNat ∧
    s.subCount.toNat < spec.subBlockBits.toNat)

theorem placeInv_iff (s : State) :
    s.PlaceInv ↔ ∀ spec, s.activeSpec = some spec → PlacedCount spec (s.placedBits spec) s :=
  Iff.rfl

/-- R194: at the end of a sub-block the counter restarts and the base moves on. -/
theorem putBit_of_endsSubBlock {spec : PatternSpec} {s : State} (h : endsSubBlock spec s = true) (d : Bool) :
    (putBit spec d s).subCount = 0 ∧ (putBit spec d s).base = s.base + spec.subBlockBytes := by
  simp [h]

/-- R191: elsewhere the counter counts. -/
theorem putBit_of_not_endsSubBlock {spec : PatternSpec} {s : State} (h : endsSubBlock spec s = false) (d : Bool) :
    (putBit spec d s).subCount = s.subCount + 1 ∧ (putBit spec d s).base = s.base := by
  simp [h]

/-- Sub-blocks of at least one bit take no more bytes than bits. -/
theorem mul_ceil8_le (q m : Nat) : q * ((m + 7) / 8) ≤ q * m := by
  rcases Nat.eq_zero_or_pos m with rfl | hm
  · simp
  · exact Nat.mul_le_mul_left q (by omega)

/-- `put(d)` places one bit more; within a frame that the checks pass neither `subCount` nor `base` wraps (R9). -/
theorem PlacedCount.putBit {spec : PatternSpec} {n : Nat} {s : State} (h : PlacedCount spec n s)
    (hpass : firstFailingCheck spec = .none) (hn : n < spec.frameLengthBits.toNat) (d : Bool) :
    PlacedCount spec (n + 1) (putBit spec d s) := by
  obtain ⟨hrange, hbytes, -⟩ := firstFailingCheck_none_bounds hpass
  refine ⟨fun hz => ?_, fun hz => ?_⟩
  · obtain ⟨hbase, hcount⟩ := h.1 hz
    obtain ⟨hc, hb⟩ := putBit_of_not_endsSubBlock (spec := spec) (s := s) (by simp [endsSubBlock, hz]) d
    rw [hc, hb]
    exact ⟨hbase, half_toNat_add_one hcount (by omega)⟩
  · obtain ⟨q, hbase, hplaced, hlt⟩ := h.2 hz
    have hsize := spec.subBlockBits.isLt
    have hsucc : (s.subCount + 1).toNat = s.subCount.toNat + 1 := half_toNat_add_one rfl (by omega)
    by_cases hend : s.subCount + 1 = spec.subBlockBits
    · obtain ⟨hc, hb⟩ := putBit_of_endsSubBlock (spec := spec) (s := s) (decide_eq_true ⟨by omega, hend⟩) d
      have hbits : (q + 1) * spec.subBlockBits.toNat = n + 1 := by
        rw [← hend, hsucc] at hplaced ⊢
        rw [hplaced]
        ring
      have hfit : (q + 1) * spec.subBlockBytes.toNat ≤ n + 1 := by
        rw [hbytes (by omega), ← hbits]
        exact mul_ceil8_le (q + 1) _
      have hnext : spec.startOffset.toNat + q * spec.subBlockBytes.toNat + spec.subBlockBytes.toNat =
          spec.startOffset.toNat + (q + 1) * spec.subBlockBytes.toNat := by ring
      rw [hc, hb]
      refine ⟨q + 1, ?_, hbits.symm, by show 0 < _; omega⟩
      rw [BitVec.toNat_add_of_lt (by omega), hbase, hnext]
    · obtain ⟨hc, hb⟩ := putBit_of_not_endsSubBlock (spec := spec) (s := s) (decide_eq_false fun he => hend he.2) d
      have hne : s.subCount.toNat + 1 ≠ spec.subBlockBits.toNat := fun he => hend (BitVec.eq_of_toNat_eq (hsucc.trans he))
      rw [hc, hb, hsucc]
      exact ⟨q, hbase, by omega, by omega⟩

/-! ### A frame in progress -/

/-- What the invariant says of `bitCount` in a frame of the entry. -/
def CountedBits (spec : PatternSpec) (s : State) : Prop :=
  (s.mode = .dataRaw ∨ s.mode = .dataBiphaseS → s.bitCount.toNat < spec.frameLengthBits.toNat) ∧
  (s.mode = .dataUart8N1 →
    ∃ n, s.bitCount.toNat = 8 * n + (s.uartPhase.val - 1) ∧ 8 * n < spec.frameLengthBits.toNat)

/-- HUNT with every frame counter cleared has the invariant, with any table that has its own. -/
theorem engineInv_of_idle {s : State} (hmode : s.mode = .hunt) (hact : s.act = none)
    (hclear : s.bitCount = 0 ∧ s.subCount = 0 ∧ s.base = 0 ∧ s.uartPhase = 0 ∧ s.half = none ∧ s.curParam = 0)
    (htable : s.TableInv) : s.EngineInv := by
  have hspec : s.activeSpec = none := by simp [State.activeSpec, hact]
  refine ⟨⟨by simp [hmode, hact], by simp [hact]⟩, fun _ => hclear, htable, ?_, ?_⟩
  · intro spec h
    simp [hspec] at h
  · intro spec h
    simp [hspec] at h

theorem completeFrame_engineInv {s : State} (h : s.TableInv) (spec : PatternSpec) : (completeFrame spec s).EngineInv :=
  engineInv_of_idle rfl rfl ⟨rfl, rfl, rfl, rfl, rfl, rfl⟩ h

section
variable {s : State} {spec : PatternSpec}

/-- The active entry is an installed one, and passes the checks. -/
theorem State.EngineInv.active_passes (h : s.EngineInv) (ha : s.activeSpec = some spec) :
    firstFailingCheck spec = .none := by
  obtain ⟨i, -, hi⟩ := Option.bind_eq_some_iff.1 ha
  exact h.table.2.2 spec (List.mem_of_getElem? hi)

/-- A change within a frame in progress, that keeps its entry and its mode. -/
theorem State.EngineInv.advance {u : State} (h : s.EngineInv) (hm : s.mode ≠ .hunt) (ha : s.activeSpec = some spec)
    (hmode : u.mode = s.mode) (hact : u.act = s.act) (hframe : FeedFrame s u) (hcount : CountedBits spec u)
    (hplace : PlacedCount spec (u.placedBits spec) u) : u.EngineInv := by
  have hspec : u.activeSpec = some spec := by rw [← ha, State.activeSpec, State.activeSpec, hact, hframe.table]
  refine ⟨?_, fun hu => absurd (hmode.symm.trans hu) hm, ?_, fun q hq => ?_, fun q hq => ?_⟩
  · rw [State.ActiveInv, hmode, hact, hframe.table]
    exact h.active
  · rw [State.TableInv, State.patCount, hframe.params, hframe.table]
    exact h.table
  · obtain rfl := Option.some.inj (hspec.symm.trans hq)
    exact hcount
  · obtain rfl := Option.some.inj (hspec.symm.trans hq)
    exact hplace

/-! ### The match (R165, R167) -/

theorem startFrame_engineInv (h : s.TableInv) {i : Nat} (hi : s.table[i]? = some spec) (hlen : spec.frameLengthBits ≠ 0)
    (t : Word) : (startFrame i spec t s).EngineInv := by
  obtain ⟨-, -, hstate⟩ := firstFailingCheck_none_bounds (h.2.2 spec (List.mem_of_getElem? hi))
  have hpos : 0 < spec.frameLengthBits.toNat := Nat.pos_of_ne_zero fun hz => hlen (BitVec.eq_of_toNat_eq hz)
  have hspec : (startFrame i spec t s).activeSpec = some spec := by simp [State.activeSpec, hi]
  refine ⟨⟨by simp [hstate], ?_⟩, fun hm => absurd hm hstate, h, fun q hq => ?_, fun q hq => ?_⟩
  · intro j hj
    obtain rfl : i = j := Option.some.inj hj
    exact ⟨spec, hi, rfl⟩
  · obtain rfl := Option.some.inj (hspec.symm.trans hq)
    exact ⟨fun _ => hpos, fun _ => ⟨0, rfl, hpos⟩⟩
  · obtain rfl := Option.some.inj (hspec.symm.trans hq)
    have hzero : (startFrame i spec t s).placedBits spec = 0 := by simp [State.placedBits]
    rw [hzero]
    refine ⟨fun _ => ⟨rfl, rfl⟩, fun hz => ⟨0, by simp, by simp, ?_⟩⟩
    exact Nat.pos_of_ne_zero fun he => hz (BitVec.eq_of_toNat_eq he)

theorem huntStep_engineInv (h : s.EngineInv) (t : Word) : (huntStep t s).EngineInv := by
  unfold huntStep
  split
  · rename_i i spec hf
    obtain ⟨-, hi, -, -⟩ := (findMatch_some _ _ _ _ _).1 hf
    unfold matchPattern
    split
    · exact completeFrame_engineInv (s := startFrame i spec t s) h.table spec
    · rename_i hlen
      exact startFrame_engineInv h.table hi hlen t
  · exact h

/-! ### The collector (R196 to R209) -/

@[simp] theorem uartData_act (spec : PatternSpec) (b : Bool) (s : State) : (uartData spec b s).act = s.act := by
  unfold uartData
  split <;> rfl

variable (h : s.EngineInv) (ha : s.activeSpec = some spec)
include h ha

/-- In RAW and BIPHASE a payload bit is placed and counted, and the last one completes the frame (R196, R207). -/
theorem completeIfFull_engineInv (hm : s.mode = .dataRaw ∨ s.mode = .dataBiphaseS) (d : Bool) :
    (completeIfFull spec (countBit (putBit spec d s))).EngineInv := by
  have hpass := h.active_passes ha
  have hmode : s.mode ≠ .hunt ∧ s.mode ≠ .dataUart8N1 := by rcases hm with hm | hm <;> simp [hm]
  have hlt := (h.bitCount spec ha).1 hm
  have hsucc : (s.bitCount + 1).toNat = s.bitCount.toNat + 1 :=
    half_toNat_add_one rfl (by have := spec.frameLengthBits.isLt; omega)
  unfold completeIfFull
  split
  · exact completeFrame_engineInv (s := countBit (putBit spec d s)) h.table spec
  · rename_i hne
    refine h.advance hmode.1 ha rfl rfl ((putBit_frame spec d s).trans (countBit_frame _)) ⟨fun _ => ?_, fun hu => ?_⟩ ?_
    · have hne' : (s.bitCount + 1).toNat ≠ spec.frameLengthBits.toNat := fun he => hne (BitVec.eq_of_toNat_eq he)
      rw [countBit_bitCount, putBit_bitCount]
      omega
    · exact absurd hu hmode.2
    · have hplaced : (countBit (putBit spec d s)).placedBits spec = s.bitCount.toNat + 1 := by
        rw [State.placedBits, countBit_mode, putBit_mode, if_neg hmode.2, countBit_bitCount, putBit_bitCount, hsucc]
      have hbefore := (placeInv_iff s).1 h.place spec ha
      rw [State.placedBits, if_neg hmode.2] at hbefore
      rw [hplaced]
      exact hbefore.putBit hpass hlt d

theorem uartStart_engineInv (hm : s.mode = .dataUart8N1) (h0 : s.uartPhase.val = 0) (b : Bool) :
    (uartStart b s).EngineInv := by
  obtain ⟨n, hn, hlt⟩ := (h.bitCount spec ha).2 hm
  refine h.advance (by simp [hm]) ha rfl rfl (uartStart_frame b s) ⟨fun hr => ?_, fun _ => ⟨n, ?_, hlt⟩⟩ (h.place spec ha)
  · change s.mode = _ ∨ s.mode = _ at hr
    simp [hm] at hr
  · show s.bitCount.toNat = 8 * n + (1 - 1)
    omega

theorem uartData_engineInv (hm : s.mode = .dataUart8N1) (h1 : 1 ≤ s.uartPhase.val) (h8 : s.uartPhase.val ≤ 8) (b : Bool) :
    (uartData spec b s).EngineInv := by
  have hpass := h.active_passes ha
  obtain ⟨hrange, -, -⟩ := firstFailingCheck_none_bounds hpass
  obtain ⟨n, hn, hlt⟩ := (h.bitCount spec ha).2 hm
  have hsucc : (s.bitCount + 1).toNat = s.bitCount.toNat + 1 := half_toNat_add_one rfl (by omega)
  have hphase : (s.uartPhase + 1).val = s.uartPhase.val + 1 := by
    rw [uartPhase_succ_eq (q := ⟨s.uartPhase.val + 1, by omega⟩) h8 rfl]
  have hmode : (uartData spec b s).mode = .dataUart8N1 := (uartData_mode spec b s).trans hm
  have hbefore := (placeInv_iff s).1 h.place spec ha
  rw [State.placedBits, if_pos hm] at hbefore
  refine h.advance (by simp [hm]) ha (uartData_mode spec b s) (uartData_act spec b s) (uartData_frame spec b s)
    ⟨fun hr => ?_, fun _ => ⟨n, ?_, hlt⟩⟩ ?_
  · simp [hm] at hr
  · rw [uartData_bitCount, uartData_uartPhase, hsucc, hphase]
    omega
  · rw [State.placedBits, if_pos hmode, uartData_bitCount, hsucc]
    rcases Nat.lt_or_ge s.bitCount.toNat spec.frameLengthBits.toNat with hF | hF
    · rw [uartData_of_lt hF, Nat.min_eq_left hF]
      rw [Nat.min_eq_left hF.le] at hbefore
      exact hbefore.putBit hpass hF b
    · rw [uartData_of_le hF, Nat.min_eq_right (by omega)]
      rw [Nat.min_eq_right hF] at hbefore
      exact hbefore

theorem uartStop_engineInv (hm : s.mode = .dataUart8N1) (h9 : s.uartPhase.val = 9) (b : Bool) :
    (uartStop spec b s).EngineInv := by
  rcases Nat.lt_or_ge s.bitCount.toNat spec.frameLengthBits.toNat with hF | hF
  · obtain ⟨n, hn, -⟩ := (h.bitCount spec ha).2 hm
    have hframe := uartStop_frame spec b s
    rw [uartStop_of_lt hF] at hframe ⊢
    refine h.advance (by simp [hm]) ha rfl rfl hframe ⟨fun hr => ?_, fun _ => ⟨n + 1, ?_, by omega⟩⟩ (h.place spec ha)
    · change s.mode = _ ∨ s.mode = _ at hr
      simp [hm] at hr
    · show s.bitCount.toNat = 8 * (n + 1) + (0 - 1)
      omega
  · rw [uartStop_of_le hF]
    exact completeFrame_engineInv (s := { countFraming (!b) s with uartPhase := 0 }) h.table spec

theorem collect_engineInv (b : Bool) : (collect spec b s).EngineInv := by
  unfold collect
  split
  case h_1 => exact h
  case h_2 hm => exact completeIfFull_engineInv h ha (.inl hm) b
  case h_3 hm =>
    by_cases h0 : s.uartPhase.val = 0
    · rw [uartStep_of_startBit h0]
      exact uartStart_engineInv h ha hm h0 b
    · by_cases h8 : s.uartPhase.val ≤ 8
      · rw [uartStep_of_dataBit (by omega) h8]
        exact uartData_engineInv h ha hm (by omega) h8 b
      · rw [uartStep_of_stopBit (by omega)]
        exact uartStop_engineInv h ha hm (by omega) b
  case h_4 hm =>
    unfold biphaseStep
    split
    · exact ⟨h.active, fun hu => absurd (hm.symm.trans hu) (by decide), h.table, h.bitCount, h.place⟩
    · have h' : State.EngineInv { s with half := none } :=
        ⟨h.active, fun hu => absurd (hm.symm.trans hu) (by decide), h.table, h.bitCount, h.place⟩
      exact completeIfFull_engineInv h' ha (.inr hm) _

end

/-! ### Every transaction and every step -/

theorem exec_feed_engineInv {s u : State} (h : s.EngineInv) (hp : s.pub = none) {b : Bool} {t : Word}
    (he : exec (.feed b t) s = .next u) : u.EngineInv := by
  have hshift : (shiftWindow b s).EngineInv := ⟨h.active, h.hunt, h.table, h.bitCount, h.place⟩
  have hrespond {x : State} (hx : x.EngineInv) : (respond .producer okResponse x).EngineInv :=
    ⟨hx.active, hx.hunt, hx.table, hx.bitCount, hx.place⟩
  rcases exec_feed_cases s u b t hp he with ⟨-, rfl⟩ | ⟨-, spec, ha, rfl⟩
  · exact hrespond (huntStep_engineInv hshift t)
  · exact hrespond (collect_engineInv hshift ha b)

theorem CommandEffect.engineInv {s t : State} (h : s.EngineInv) (hc : CommandEffect s t) : t.EngineInv := by
  cases hc with
  | nothing => exact h
  | reset =>
    exact engineInv_of_idle rfl rfl ⟨rfl, rfl, rfl, rfl, rfl, rfl⟩ ⟨h.table.1, Nat.zero_le _, fun q hq => by cases hq⟩
  | status c => exact ⟨h.active, h.hunt, h.table, h.bitCount, h.place⟩
  | accept count hle hq =>
    refine engineInv_of_idle rfl rfl ⟨rfl, rfl, rfl, rfl, rfl, rfl⟩ ⟨h.table.1, ?_, hq⟩
    exact (stagedSpecs_length s count).trans_le hle

theorem exec_engineInv {s u : State} (h : s.EngineInv) {i : Instr} (he : exec i s = .next u) : u.EngineInv := by
  cases hi : i.agent with
  | consumer =>
    obtain ⟨m, r, hx, -⟩ := exec_consumer i s hi
    rw [hx] at he
    cases he
    exact ⟨h.active, h.hunt, h.table, h.bitCount, h.place⟩
  | producer =>
    cases hp : s.pub with
    | some p =>
      rw [exec_held i s p hp hi, publishEvent_frame] at he
      cases he
      exact ⟨h.active, h.hunt, h.table, h.bitCount, h.place⟩
    | none =>
      rcases exec_producer_effect i s u hi hp he with ⟨b, t, rfl⟩ | ⟨r, t, rfl, hc | ⟨j, w, v, -, -, rfl⟩⟩
      · exact exec_feed_engineInv h hp he
      · have ht := hc.engineInv h
        exact ⟨ht.active, ht.hunt, ht.table, ht.bitCount, ht.place⟩
      · exact ⟨h.active, h.hunt, h.table, h.bitCount, h.place⟩

theorem step_engineInv {s u : State} (h : s.EngineInv) (hs : step s = .next u) : u.EngineInv := by
  rcases step_cases s u hs with ⟨-, rfl⟩ | ⟨k, rest, p, -, -, rfl⟩ | ⟨k, rest, -, -, -, rfl⟩ |
    ⟨k, rest, w, ws, i, -, -, -, -, -, he⟩ | ⟨rest, -, -, rfl⟩ | ⟨rest, w, ws, i, -, -, -, -, he⟩
  · exact h
  · rw [publishEvent_frame]
    exact ⟨h.active, h.hunt, h.table, h.bitCount, h.place⟩
  · exact ⟨h.active, h.hunt, h.table, h.bitCount, h.place⟩
  · refine exec_engineInv ?_ he
    exact ⟨h.active, h.hunt, h.table, h.bitCount, h.place⟩
  · exact ⟨h.active, h.hunt, h.table, h.bitCount, h.place⟩
  · refine exec_engineInv ?_ he
    exact ⟨h.active, h.hunt, h.table, h.bitCount, h.place⟩

theorem reset_engineInv : State.reset.EngineInv :=
  engineInv_of_idle rfl rfl ⟨rfl, rfl, rfl, rfl, rfl, rfl⟩ ⟨by decide, by decide, fun q hq => by cases hq⟩

/-! ### No fault (log 11) -/

/-- A FEED with no publish pending answers a next state where invariant 1 holds. -/
theorem exec_feed_next {s : State} (h : s.ActiveInv) (hp : s.pub = none) (b : Bool) (t : Word) :
    ∃ u, exec (.feed b t) s = .next u := by
  by_cases hm : s.mode = .hunt
  · exact ⟨_, exec_feed_hunt s b t hp hm⟩
  · obtain ⟨spec, ha, -⟩ := h.activeSpec hm
    exact ⟨_, exec_feed_collect s b t spec hp hm ha⟩

/-- Every transaction answers a next state where invariant 1 holds. -/
theorem exec_next {s : State} (h : s.ActiveInv) (i : Instr) : ∃ u, exec i s = .next u := by
  cases hi : i.agent with
  | consumer =>
    obtain ⟨m, r, hx, -⟩ := exec_consumer i s hi
    exact ⟨_, hx⟩
  | producer =>
    cases hp : s.pub with
    | some p => exact ⟨_, exec_held i s p hp hi⟩
    | none =>
      cases i with
      | feed b t => exact exec_feed_next h hp b t
      | regWrite off v =>
        by_cases ha : off.toNat % 4 = 0
        · exact ⟨_, exec_regWrite off v s hp ha⟩
        · exact ⟨_, exec_regWrite_misaligned off v s hp ha⟩
      | regRead off =>
        by_cases ha : off.toNat % 4 = 0
        · exact ⟨_, exec_regRead off s hp ha⟩
        · exact ⟨_, exec_regRead_misaligned off s hp ha⟩
      | cmdNop => exact ⟨_, runCommand_none (fun s => s) s hp⟩
      | cmdOpen => exact ⟨_, exec_cmdOpen s hp⟩
      | cmdConfigure count => exact ⟨_, exec_cmdConfigure count s hp⟩
      | cmdIllegal3 => exact ⟨_, runCommand_none illegalCommand s hp⟩
      | cmdIllegal4To7 _ => exact ⟨_, runCommand_none illegalCommand s hp⟩
      | cmdIllegal8ToF _ => exact ⟨_, runCommand_none illegalCommand s hp⟩
      | poolRead8 _ | poolRead16 _ | poolRead32 _ | poolReadSz3 _ | poolWrite8 _ _ | poolWriteBadSz _ _ _ => cases hi

theorem runWord_ne_fault {s : State} (h : s.ActiveInv) (a : Agent) (w : TransWord) (r : Fault) :
    runWord a w s ≠ .fault r := by
  unfold runWord
  split
  · nofun
  · rename_i i _
    split
    · obtain ⟨u, hu⟩ := exec_next h i
      rw [hu]
      nofun
    · nofun

theorem step_ne_fault {s : State} (h : s.ActiveInv) (r : Fault) : step s ≠ .fault r := by
  unfold step takeTurn producerStep consumerStep
  split
  · nofun
  · split
    · nofun
    · split
      · nofun
      · refine runWord_ne_fault ?_ _ _ r
        exact h
  · split
    · nofun
    · refine runWord_ne_fault ?_ _ _ r
      exact h

theorem State.EngineInv.safeRun : ∀ (n : Nat) {s : State}, s.EngineInv → SafeRun n s
  | 0, s, _ => nofun
  | n + 1, s, h => by
    intro r hr
    rw [runSteps] at hr
    split at hr
    · rename_i u hu
      exact State.EngineInv.safeRun n (step_engineInv h hu) r hr
    · rename_i r' hf
      exact step_ne_fault h.active r' hf
    · cases hr

end Sys2Proof.Machine

open Sys2Proof Sys2Proof.Machine

/-- Settles O54, by what a step can be: a FEED that starts, advances or completes a frame, a command, or a change the invariant
does not speak of. -/
theorem everyStepKeepsTheEngineInvariant : Obligations.EveryStepKeepsTheEngineInvariant :=
  fun _ _ => step_engineInv

/-- Settles O55: HUNT, no active entry, cleared counters, an empty table. -/
theorem engineInvariantAtReset : Obligations.EngineInvariantAtReset := reset_engineInv

/-- Settles O58, by induction on the steps: each keeps the invariant, whose first part rules the fault out. -/
theorem runsAreSafe : Obligations.RunsAreSafe :=
  fun _ n h => h.safeRun n
end

section
/-! SUPPORT. The invariants of POOL (20_memory.md R93, R94), STAGE (10_state.md R48, R62) and the pending publish
(42_buffer_pool.md R240, R241): they hold at reset and every step keeps them. -/

namespace Sys2Proof.Machine

/-! ### POOL -/

/-- The invariant of POOL as a property of its bytes. -/
def Memory.IsPool (m : Memory) : Prop :=
  m.wf = true ∧ (∀ c ∈ m, c.1 < 0x2000 ∧ c.1 % 0x800 < 0x408) ∧ ∀ c ∈ m, c.1 % 0x800 = 0x400 → c.2 = 1

theorem poolInv_iff (s : State) : s.PoolInv ↔ s.pool.IsPool :=
  ⟨fun ⟨hwf, hfields, hvalid⟩ => ⟨hwf, hfields, hvalid⟩, fun ⟨hwf, hfields, hvalid⟩ => ⟨hwf, hfields, hvalid⟩⟩

section
variable {m : Memory} (h : m.IsPool)
include h

/-- Clearing a byte lists nothing new. -/
theorem Memory.IsPool.writeZero (a : Nat) : (m.writeByte a 0).IsPool := by
  obtain ⟨hwf, hfields, hvalid⟩ := h
  have hmem : ∀ c ∈ m.writeByte a 0, c ∈ m := fun c hc => by
    rcases (mem_cellsWrite _ _ _ _ _).1 hc with ⟨-, hne⟩ | ⟨hc, -⟩
    · exact absurd rfl hne
    · exact hc
  exact ⟨m.writeByte_wf a 0 hwf, fun c hc => hfields c (hmem c hc), fun c hc => hvalid c (hmem c hc)⟩

theorem Memory.IsPool.clearAllValid : (clearAllValid m).IsPool :=
  (((h.writeZero _).writeZero _).writeZero _).writeZero _

/-- The last publish event lists a `valid` byte of 1 (R242). -/
theorem Memory.IsPool.writeValid (k : Fin poolSlots) : (m.writeByte (validAddr k) 1).IsPool := by
  obtain ⟨hwf, hfields, hvalid⟩ := h
  have hk : k.val < 4 := k.isLt
  refine ⟨m.writeByte_wf _ _ hwf, fun c hc => ?_, fun c hc => ?_⟩ <;>
    rcases (mem_cellsWrite _ _ _ _ _).1 hc with ⟨rfl, -⟩ | ⟨hc, -⟩
  · simp only [validAddr, slotBase]
    omega
  · exact hfields c hc
  · exact fun _ => rfl
  · exact hvalid c hc

/-- A field write lists bytes of its slot's fields other than `valid` (R242). -/
theorem Memory.IsPool.performFieldWrite (p : Publish) (f : FieldWrite) : (performFieldWrite p f m).IsPool := by
  obtain ⟨hwf, hfields, hvalid⟩ := h
  have hk : p.slot.val < 4 := p.slot.isLt
  refine ⟨performFieldWrite_wf p f m hwf, fun c hc => ?_, fun c hc hat => ?_⟩ <;>
    rcases mem_performFieldWrite p f m c hc with hc | ⟨hlo, hhi, hne⟩
  · exact hfields c hc
  · simp only [slotBase] at hlo hhi
    omega
  · exact hvalid c hc hat
  · simp only [slotBase, validAddr] at hlo hhi hne
    omega

end

/-- A read answers the default or a listed entry. -/
theorem cellsRead_eq_default_or_mem {β : Type} (d : β) (m : List (Nat × β)) (k : Nat) :
    cellsRead d m k = d ∨ (k, cellsRead d m k) ∈ m := by
  induction m with
  | nil => exact .inl rfl
  | cons c rest ih =>
    rw [cellsRead]
    split
    · rename_i hk
      exact .inr (hk ▸ List.mem_cons_self)
    · exact ih.imp_right (List.mem_cons_of_mem c)

/-- A `valid` byte is not listed, or listed as 1 (R94). -/
theorem Memory.IsPool.readByte_validAddr {m : Memory} (h : m.IsPool) (k : Fin poolSlots) :
    m.readByte (validAddr k) = 0 ∨ m.readByte (validAddr k) = 1 := by
  obtain ⟨-, -, hvalid⟩ := h
  refine (cellsRead_eq_default_or_mem Memory.unlisted m (validAddr k)).imp_right fun hmem => hvalid _ hmem ?_
  simp only [validAddr, slotBase]
  omega

/-! ### The pending publish -/

theorem publishInv_of_none {s : State} (h : s.pub = none) : s.PublishInv := by
  intro p hp
  rw [h] at hp
  cases hp

/-- A fresh record has every field write pending, each once (R240). -/
theorem completeFrame_publishInv (spec : PatternSpec) (s : State) : (completeFrame spec s).PublishInv := by
  intro p hp
  obtain rfl := Option.some.inj ((completeFrame_pub s spec).symm.trans hp)
  exact ⟨allFieldWrites_nodup, fun _ => mem_allFieldWrites⟩

/-- The collector schedules a publish by completing a frame, or leaves `pub` as it is. -/
theorem collect_completes_or_keeps_pub (spec : PatternSpec) (b : Bool) (s : State) :
    (∃ t, collect spec b s = completeFrame spec t) ∨ (collect spec b s).pub = s.pub := by
  have hfull (x : State) : (∃ t, completeIfFull spec x = completeFrame spec t) ∨ (completeIfFull spec x).pub = x.pub := by
    unfold completeIfFull
    split
    · exact .inl ⟨x, rfl⟩
    · exact .inr rfl
  unfold collect
  split
  · exact .inr rfl
  · exact hfull (countBit (putBit spec b s))
  · unfold uartStep
    split
    · exact .inr rfl
    split
    · exact .inr (uartData_pub spec b s)
    · unfold uartStop
      dsimp only
      split
      · exact .inl ⟨_, rfl⟩
      · exact .inr rfl
  · unfold biphaseStep
    split
    · exact .inr rfl
    · exact hfull (countBit (putBit spec _ { s with half := none }))

theorem exec_feed_publishInv {s u : State} {b : Bool} {t : Word} (hp : s.pub = none) (he : exec (.feed b t) s = .next u) :
    u.PublishInv := by
  rcases exec_feed_cases s u b t hp he with ⟨-, rfl⟩ | ⟨-, spec, -, rfl⟩
  · rcases huntStep_cases t (shiftWindow b s) with hx | ⟨j, spec, -, -, hx | hx⟩ <;> rw [hx]
    · exact publishInv_of_none hp
    · exact publishInv_of_none hp
    · exact completeFrame_publishInv spec (startFrame j spec t (shiftWindow b s))
  · rcases collect_completes_or_keeps_pub spec b (shiftWindow b s) with ⟨x, hx⟩ | hx
    · rw [hx]
      exact completeFrame_publishInv spec x
    · exact publishInv_of_none (hx.trans hp)

/-! ### All of them -/

/-- The invariants of POOL, STAGE, the pending publish and NPAT_MAX. -/
structure State.StorageInv (s : State) : Prop where
  pool : s.pool.IsPool
  stage : s.StageInv
  publish : s.PublishInv
  params : s.params.wf

theorem storageInv_iff (s : State) : s.StorageInv ↔ s.PoolInv ∧ s.StageInv ∧ s.PublishInv ∧ s.params.wf := by
  rw [poolInv_iff]
  exact ⟨fun h => ⟨h.pool, h.stage, h.publish, h.params⟩, fun ⟨hpool, hstage, hpub, hparams⟩ =>
    ⟨hpool, hstage, hpub, hparams⟩⟩

theorem reset_storageInv : State.reset.StorageInv :=
  ⟨⟨by decide, by decide, by decide⟩, ⟨by decide, by decide⟩, publishInv_of_none rfl, by decide⟩

section
variable {s : State} (h : s.StorageInv)
include h

/-- Each publish event keeps W without repeats, and complete until the check (R241, R242). -/
theorem State.StorageInv.publishEvent (k : Nat) {p : Publish} (hp : s.pub = some p) : (publishEvent k p s).StorageInv := by
  obtain ⟨hnodup, hcomplete⟩ := h.publish p hp
  cases hc : p.checked with
  | false =>
    rw [publishEvent_check k p s hc]
    refine ⟨h.pool, ⟨h.stage.wf, h.stage.keys⟩, fun q hq => ?_, h.params⟩
    obtain rfl : { p with checked := true } = q := Option.some.inj hq
    exact ⟨hnodup, nofun⟩
  | true =>
    by_cases hw : p.pending = []
    · rw [publishEvent_last k p s hc hw]
      exact ⟨h.pool.writeValid p.slot, ⟨h.stage.wf, h.stage.keys⟩, publishInv_of_none rfl, h.params⟩
    · obtain ⟨i, hi, -, he⟩ := publishEvent_field k p s hc hw
      rw [he]
      refine ⟨h.pool.performFieldWrite p p.pending[i], ⟨h.stage.wf, h.stage.keys⟩, fun q hq => ?_, h.params⟩
      obtain rfl : { p with pending := p.pending.eraseIdx i } = q := Option.some.inj hq
      exact ⟨hnodup.sublist (List.eraseIdx_sublist ..), fun hf => absurd (hc.symm.trans hf) (by decide)⟩

/-- A command keeps STAGE and `pub`, or resets (R340). -/
theorem State.StorageInv.command {t : State} (hc : CommandEffect s t) : t.StorageInv := by
  cases hc with
  | nothing => exact h
  | reset => exact ⟨h.pool.clearAllValid, ⟨by rw [machineReset_sdesc]; decide, nofun⟩, h.publish, h.params⟩
  | status c => exact ⟨h.pool, ⟨h.stage.wf, h.stage.keys⟩, h.publish, h.params⟩
  | accept count _ _ => exact ⟨h.pool, ⟨h.stage.wf, h.stage.keys⟩, h.publish, h.params⟩

/-- A STAGE word of a descriptor below NPAT_MAX (R62). -/
theorem State.StorageInv.setSdescWord {j w : Nat} (hj : j < s.params.npatMax) (hw : w < 8) (v : Word) :
    (s.setSdescWord j w v).StorageInv := by
  refine ⟨h.pool, ⟨cellsWrite_wf 0 s.sdesc _ v h.stage.wf, fun c hc => ?_⟩, h.publish, h.params⟩
  rcases (mem_cellsWrite _ _ _ _ _).1 hc with ⟨rfl, -⟩ | ⟨hc, -⟩
  · show 8 * j + w < 8 * s.params.npatMax
    omega
  · exact h.stage.keys c hc

theorem exec_feed_storageInv {u : State} {b : Bool} {t : Word} (hp : s.pub = none) (he : exec (.feed b t) s = .next u) :
    u.StorageInv := by
  have hframe := exec_feed_frame s u b t hp he
  refine ⟨hframe.pool ▸ h.pool, ⟨hframe.sdesc ▸ h.stage.wf, ?_⟩, exec_feed_publishInv hp he, hframe.params ▸ h.params⟩
  rw [hframe.sdesc, hframe.params]
  exact h.stage.keys

theorem exec_storageInv {u : State} {i : Instr} (he : exec i s = .next u) : u.StorageInv := by
  cases hi : i.agent with
  | consumer =>
    obtain ⟨m, r, hx, hm⟩ := exec_consumer i s hi
    rw [hx] at he
    cases he
    refine ⟨?_, ⟨h.stage.wf, h.stage.keys⟩, h.publish, h.params⟩
    rcases hm with rfl | ⟨addr, -, rfl⟩
    · exact h.pool
    · exact h.pool.writeZero addr.toNat
  | producer =>
    cases hp : s.pub with
    | some p =>
      rw [exec_held i s p hp hi] at he
      cases he
      exact h.publishEvent s.pick hp
    | none =>
      have hrespond {t : State} (r : Response) (ht : t.StorageInv) : (respond .producer r t).StorageInv :=
        ⟨ht.pool, ⟨ht.stage.wf, ht.stage.keys⟩, ht.publish, ht.params⟩
      rcases exec_producer_effect i s u hi hp he with ⟨b, t, rfl⟩ | ⟨r, t, rfl, hc | ⟨j, w, v, hj, hw, rfl⟩⟩
      · exact exec_feed_storageInv h hp he
      · exact hrespond r (h.command hc)
      · exact hrespond r (h.setSdescWord hj hw v)

theorem step_storageInv {u : State} (hs : step s = .next u) : u.StorageInv := by
  rcases step_cases s u hs with ⟨-, rfl⟩ | ⟨k, rest, p, -, hp, rfl⟩ | ⟨k, rest, -, -, -, rfl⟩ |
    ⟨k, rest, w, ws, i, -, -, -, -, -, he⟩ | ⟨rest, -, -, rfl⟩ | ⟨rest, w, ws, i, -, -, -, -, he⟩
  · exact h
  · refine State.StorageInv.publishEvent ?_ k hp
    exact ⟨h.pool, ⟨h.stage.wf, h.stage.keys⟩, h.publish, h.params⟩
  · exact ⟨h.pool, ⟨h.stage.wf, h.stage.keys⟩, h.publish, h.params⟩
  · refine exec_storageInv ?_ he
    exact ⟨h.pool, ⟨h.stage.wf, h.stage.keys⟩, h.publish, h.params⟩
  · exact ⟨h.pool, ⟨h.stage.wf, h.stage.keys⟩, h.publish, h.params⟩
  · refine exec_storageInv ?_ he
    exact ⟨h.pool, ⟨h.stage.wf, h.stage.keys⟩, h.publish, h.params⟩

end

end Sys2Proof.Machine

open Sys2Proof Sys2Proof.Machine

/-- Settles O56, by what a step can be: a publish event, a FEED, a command, a STAGE word or a cleared `valid`. -/
theorem everyStepKeepsTheStorageInvariants : Obligations.EveryStepKeepsTheStorageInvariants :=
  fun s u h hs => (storageInv_iff u).1 (step_storageInv ((storageInv_iff s).2 h) hs)

/-- Settles O57: nothing is listed, nothing is pending, and NPAT_MAX is 16. -/
theorem storageInvariantsAtReset : Obligations.StorageInvariantsAtReset :=
  (storageInv_iff State.reset).1 reset_storageInv

/-- Settles O59: a `valid` byte that is listed is 1, one that is not reads 0. -/
theorem validReadsZeroOrOne : Obligations.ValidReadsZeroOrOne :=
  fun s k h => ((poolInv_iff s).1 h).readByte_validAddr k
end

section
/-! SUPPORT. Proofs about the consumer's transactions (42_buffer_pool.md R247 to R249): what a POOL_READ answers, what is an error,
and that POOL alone decides. -/

namespace Sys2Proof.Machine

/-! ### The bytes of a read (R247, R96) -/

/-- A word is its four bytes. -/
theorem word_eq_of_bytes {x y : Word} (h : ∀ k, k < 4 → x.extractLsb' (8 * k) 8 = y.extractLsb' (8 * k) 8) : x = y := by
  apply BitVec.eq_of_getLsbD_eq
  intro i hi
  have hbit := congrArg (BitVec.getLsbD · (i % 8)) (h (i / 8) (by omega))
  simpa [BitVec.getLsbD_extractLsb', Nat.mod_lt, Nat.div_add_mod] using hbit

/-- A byte at an offset that is not reserved (R94). -/
theorem Memory.poolByte_of_field (m : Memory) {a : Nat} (h : a % 0x800 < 0x408) : m.poolByte a = m.readByte a := by
  rw [poolByte, isReservedOffset, decide_eq_false (by omega), if_neg Bool.false_ne_true]

/-- The byte a POOL access sees, as the two cases of R94. -/
theorem Memory.poolByte_eq (m : Memory) (a : Nat) : m.poolByte a = if a % 0x800 < 0x408 then m.readByte a else 0 := by
  split
  · rename_i h
    exact m.poolByte_of_field h
  · rename_i h
    rw [poolByte, isReservedOffset, decide_eq_true (by omega), if_pos rfl]

/-- A read sees each byte through `poolByte`, so POOLs with the same bytes read the same. -/
theorem Memory.readLE_congr {m m' : Memory} (h : ∀ a, m.readByte a = m'.readByte a) :
    ∀ (n a : Nat), m.readLE a n = m'.readLE a n
  | 0, _ => rfl
  | n + 1, a => by rw [readLE, readLE, poolByte_eq, poolByte_eq, h, readLE_congr h n]

/-- Byte k of bytes side by side. -/
theorem extractLsb'_append_upper {n m : Nat} (hi : BitVec n) (lo : BitVec m) (s len : Nat) :
    (hi ++ lo).extractLsb' (m + s) len = hi.extractLsb' s len := by
  apply BitVec.eq_of_getLsbD_eq
  intro i _
  simp [BitVec.getLsbD_extractLsb', BitVec.getLsbD_append, Nat.add_assoc]

theorem extractLsb'_append_lower {n m : Nat} (hi : BitVec n) (lo : BitVec m) :
    (hi ++ lo).extractLsb' 0 m = lo := by
  apply BitVec.eq_of_getLsbD_eq
  intro i hi
  simp [BitVec.getLsbD_append, hi]

/-- Four bytes side by side, from the lowest on. -/
theorem bytes_append (b0 b1 b2 b3 : Byte) (k : Nat) (hk : k < 4) :
    (b3 ++ b2 ++ b1 ++ b0).extractLsb' (8 * k) 8 = [b0, b1, b2, b3][k] := by
  match k with
  | 0 => exact extractLsb'_append_lower (b3 ++ b2 ++ b1) b0
  | 1 =>
    rw [extractLsb'_append_upper (b3 ++ b2 ++ b1) b0 0 8]
    exact extractLsb'_append_lower (b3 ++ b2) b1
  | 2 =>
    rw [extractLsb'_append_upper (b3 ++ b2 ++ b1) b0 8 8, extractLsb'_append_upper (b3 ++ b2) b1 0 8]
    exact extractLsb'_append_lower b3 b2
  | 3 =>
    rw [extractLsb'_append_upper (b3 ++ b2 ++ b1) b0 16 8, extractLsb'_append_upper (b3 ++ b2) b1 8 8,
      extractLsb'_append_upper b3 b2 0 8]
    exact BitVec.extractLsb'_eq_self

/-- A read of n bytes as four bytes side by side: 0 from byte n on. -/
theorem Memory.readLE_eq_append (m : Memory) (a n : Nat) :
    m.readLE a n = (if 3 < n then m.poolByte (a + 3) else 0) ++ (if 2 < n then m.poolByte (a + 2) else 0) ++
      (if 1 < n then m.poolByte (a + 1) else 0) ++ (if 0 < n then m.poolByte a else 0) := by
  refine word_eq_of_bytes fun k hk => ?_
  rw [readLE_byte n m a k hk, bytes_append _ _ _ _ k hk]
  match k with
  | 0 | 1 | 2 | 3 => rfl

/-! ### The fields of a slot (R93) -/

/-- An address of POOL as an operand. -/
theorem toNat_ofNat_slotBase_add (k : Fin poolSlots) {o : Nat} (ho : o < 0x800) :
    (BitVec.ofNat 13 (slotBase k + o)).toNat = slotBase k + o := by
  have hk : k.val < 4 := k.isLt
  rw [BitVec.toNat_ofNat, slotBase, Nat.mod_eq_of_lt (by omega)]

/-- A field's byte as a POOL access sees it. -/
theorem Memory.poolByte_slot (m : Memory) (k : Fin poolSlots) {o : Nat} (ho : o < 0x408) :
    m.poolByte (slotBase k + o) = m.readByte (slotBase k + o) :=
  m.poolByte_of_field (by rw [slotBase]; omega)

/-- An aligned read within a slot (R247). -/
theorem poolRead_slot (s : State) (k : Fin poolSlots) {n o : Nat} (ho : o < 0x800) (hn : (slotBase k + o) % n = 0) :
    poolRead n (BitVec.ofNat 13 (slotBase k + o)) s =
      .next { s with consumerResp := some ⟨.ok, s.pool.readLE (slotBase k + o) n⟩ } := by
  rw [poolRead_eq, toNat_ofNat_slotBase_add k ho, if_pos hn]

theorem readLE_validAddr (s : State) (k : Fin poolSlots) :
    s.pool.readLE (validAddr k) 4 = s.slotParam k ++ s.slotOpcode k ++ s.slotValid k := by
  rw [Memory.readLE_eq_append]
  simp only [validAddr, Nat.add_assoc, Memory.poolByte_slot _ k, Nat.reduceAdd, Nat.reduceLT, if_true]
  rfl

theorem readLE_rxTimeAddr (s : State) (k : Fin poolSlots) : s.pool.readLE (rxTimeAddr k) 4 = s.slotRxTime k := by
  rw [Memory.readLE_eq_append]
  simp only [rxTimeAddr, Nat.add_assoc, Memory.poolByte_slot _ k, Nat.reduceAdd, Nat.reduceLT, if_true]
  rfl

/-- Two bytes zero-extended. -/
theorem zero_append_bytes (b0 b1 : Byte) : 0#8 ++ 0#8 ++ b1 ++ b0 = 0#16 ++ (b1 ++ b0) := by
  apply BitVec.eq_of_getLsbD_eq
  intro i hi
  simp only [BitVec.getLsbD_append, BitVec.getLsbD_zero]
  split_ifs <;> first | rfl | omega

theorem readLE_paramAddr (s : State) (k : Fin poolSlots) :
    s.pool.readLE (paramAddr k) 2 = 0#16 ++ s.slotParam k := by
  rw [Memory.readLE_eq_append]
  simp only [paramAddr, Nat.add_assoc, Memory.poolByte_slot _ k, Nat.reduceAdd, Nat.reduceLT, if_true, if_false]
  exact zero_append_bytes _ _

theorem readLE_dataAddr (s : State) (k : Fin poolSlots) (j : Fin bufBytes) :
    s.pool.readLE (dataAddr k j) 1 = 0#24 ++ s.slotData k j := by
  have hj : j.val < 1024 := j.isLt
  rw [Memory.readLE_eq_append]
  simp only [dataAddr, Memory.poolByte_slot _ k (o := j.val) (by omega), Nat.reduceLT, if_true, if_false]
  rfl

/-- POOL_READ32 of a slot's `rxTime`. -/
theorem exec_poolRead32_rxTimeAddr (s : State) (k : Fin poolSlots) :
    exec (.poolRead32 (BitVec.ofNat 13 (rxTimeAddr k))) s =
      .next { s with consumerResp := some ⟨.ok, s.slotRxTime k⟩ } := by
  rw [← readLE_rxTimeAddr]
  exact poolRead_slot s k (n := 4) (o := 0x404) (by decide) (by rw [slotBase]; omega)

end Sys2Proof.Machine

open Sys2Proof Sys2Proof.Machine

/-- Settles O30: each size is a read of its number of bytes, of which each is seen through `poolByte`. -/
theorem poolReadAnswersItsBytes : Obligations.PoolReadAnswersItsBytes := by
  intro s addr n i hi haligned
  have hexec : exec i s = poolRead n addr s := by
    rcases hi with ⟨rfl, rfl⟩ | ⟨rfl, rfl⟩ | ⟨rfl, rfl⟩ <;> rfl
  refine ⟨s.pool.readLE addr.toNat n, ?_, fun k hk => ?_⟩
  · rw [hexec, poolRead_eq, if_pos haligned]
  · rw [Memory.readLE_byte n _ _ k hk, Memory.poolByte_eq, ← ite_and]

/-- Settles O31: the reads are aligned, and their bytes are the bytes of the fields. -/
theorem poolReadSeesTheSlotFields : Obligations.PoolReadSeesTheSlotFields := by
  refine fun s k => ⟨?valid, exec_poolRead32_rxTimeAddr s k, ?param, fun j => ?data⟩
  case valid =>
    rw [← readLE_validAddr]
    exact poolRead_slot s k (n := 4) (o := 0x400) (by decide) (by rw [slotBase]; omega)
  case param =>
    rw [← readLE_paramAddr]
    exact poolRead_slot s k (n := 2) (o := 0x402) (by decide) (by rw [slotBase]; omega)
  case data =>
    rw [← readLE_dataAddr]
    exact poolRead_slot s k (by have := j.isLt; unfold bufBytes at this; omega) (Nat.mod_one _)

/-- Settles O32: the misaligned case of a read, and the two transactions that are always an error. -/
theorem poolAlignErrorsChangeNothing : Obligations.PoolAlignErrorsChangeNothing := by
  refine ⟨rfl, fun s addr sz v => ⟨fun h => ?_, fun h => ?_, rfl, fun _ => rfl⟩⟩
  · exact (poolRead_eq 2 addr s).trans (by rw [if_neg h])
  · exact (poolRead_eq 4 addr s).trans (by rw [if_neg h])

/-- Settles O34, by the form of the transaction: a read answers POOL's bytes, a write answers (0, 0) and clears a byte or none,
the rest is an error. -/
theorem consumerSeesOnlyThePool : Obligations.ConsumerSeesOnlyThePool := by
  intro s u i hi hpool
  have hread (n : Nat) (a : BitVec 13) : ∃ r, poolRead n a s = .next { s with pool := s.pool, consumerResp := some r } ∧
      poolRead n a u = .next { u with pool := u.pool, consumerResp := some r } := by
    refine ⟨_, poolRead_eq n a s, ?_⟩
    rw [poolRead_eq, Memory.readLE_congr hpool]
  rcases Instr.consumer_cases i hi with ⟨a, rfl⟩ | ⟨a, rfl⟩ | ⟨a, rfl⟩ | ⟨a, rfl⟩ | ⟨a, v, rfl⟩ | ⟨sz, a, v, rfl⟩
  · obtain ⟨r, hs, hu⟩ := hread 1 a
    exact ⟨s.pool, u.pool, r, hs, hu, hpool⟩
  · obtain ⟨r, hs, hu⟩ := hread 2 a
    exact ⟨s.pool, u.pool, r, hs, hu, hpool⟩
  · obtain ⟨r, hs, hu⟩ := hread 4 a
    exact ⟨s.pool, u.pool, r, hs, hu, hpool⟩
  · exact ⟨s.pool, u.pool, _, rfl, rfl, hpool⟩
  · refine ⟨_, _, _, execPoolWrite8_eq a v s, execPoolWrite8_eq a v u, fun x => ?_⟩
    split
    · rw [Memory.readByte_writeByte, Memory.readByte_writeByte, hpool]
    · exact hpool x
  · exact ⟨s.pool, u.pool, _, rfl, rfl, hpool⟩
end

section
/-! SUPPORT. Proofs about the publish (42_buffer_pool.md R240 to R246): its events one by one, the whole of it, what it writes of a
slot and that nothing else does, and the torn read (20_memory.md R110). -/

namespace Sys2Proof.Machine

/-! ### Which field write stores a byte (R93, R242) -/

/-- The field write whose bytes lie at an offset of a slot. -/
def FieldWrite.atOffset (o : Nat) : FieldWrite :=
  if h : o < bufBytes then .data ⟨o, h⟩ else if o = 0x401 then .opcode else if o < 0x404 then .param else .rxTime

/-- A byte that a field write stores is in the slot's fields, is not `valid`, and no other field write stores it. -/
theorem Publish.storedByte_eq_some {p : Publish} {f : FieldWrite} {a : Nat} {b : Byte} (h : p.storedByte f a = some b) :
    slotBase p.slot ≤ a ∧ a < slotBase p.slot + 0x408 ∧ a ≠ validAddr p.slot ∧
      f = FieldWrite.atOffset (a - slotBase p.slot) := by
  have hat (o : Nat) (ho : o < 0x408 ∧ o ≠ 0x400) (hf : f = FieldWrite.atOffset o) (ha : a = slotBase p.slot + o) :
      slotBase p.slot ≤ a ∧ a < slotBase p.slot + 0x408 ∧ a ≠ validAddr p.slot ∧
        f = FieldWrite.atOffset (a - slotBase p.slot) := by
    subst ha
    rw [Nat.add_sub_cancel_left]
    exact ⟨by omega, by omega, by rw [validAddr]; omega, hf⟩
  cases f with
  | data j =>
    rw [storedByte, Option.ite_none_right_eq_some] at h
    have hj := j.isLt
    refine hat j.val ⟨?_, ?_⟩ ?_ h.1
    · unfold bufBytes at hj
      omega
    · exact Nat.ne_of_lt hj
    · rw [FieldWrite.atOffset, dif_pos hj]
  | opcode =>
    rw [storedByte, Option.ite_none_right_eq_some] at h
    exact hat 0x401 (by decide) rfl h.1
  | param =>
    rw [storedByte] at h
    split at h
    · rename_i ha
      exact hat 0x402 (by decide) rfl ha
    · rw [Option.ite_none_right_eq_some] at h
      exact hat 0x403 (by decide) rfl h.1
  | rxTime =>
    rw [storedByte] at h
    split at h
    · rename_i ha
      exact hat 0x404 (by decide) rfl ha
    split at h
    · rename_i ha
      exact hat 0x405 (by decide) rfl ha
    split at h
    · rename_i ha
      exact hat 0x406 (by decide) rfl ha
    · rw [Option.ite_none_right_eq_some] at h
      exact hat 0x407 (by decide) rfl h.1

/-- No field write stores a byte outside its slot's fields, or `valid`. -/
theorem Publish.storedByte_eq_none {p : Publish} {a : Nat}
    (h : ¬ (slotBase p.slot ≤ a ∧ a < slotBase p.slot + 0x408) ∨ a = validAddr p.slot) (f : FieldWrite) :
    p.storedByte f a = none := by
  rw [Option.eq_none_iff_forall_ne_some]
  intro b hb
  obtain ⟨hlo, hhi, hne, -⟩ := storedByte_eq_some hb
  exact h.elim (fun ho => ho ⟨hlo, hhi⟩) hne

theorem performFieldWrite_readByte_of_none {p : Publish} {f : FieldWrite} {a : Nat} (h : p.storedByte f a = none)
    (m : Memory) : (performFieldWrite p f m).readByte a = m.readByte a := by
  rw [performFieldWrite_readByte, h]
  rfl

theorem performFieldWrite_readByte_of_some {p : Publish} {f : FieldWrite} {a : Nat} {b : Byte}
    (h : p.storedByte f a = some b) (m : Memory) : (performFieldWrite p f m).readByte a = b := by
  rw [performFieldWrite_readByte, h]
  rfl

/-! ### A slot whose bytes the record has stored -/

/-- The field write's bytes stand in POOL. -/
def Publish.IsStored (p : Publish) (f : FieldWrite) (m : Memory) : Prop :=
  ∀ a b, p.storedByte f a = some b → m.readByte a = b

theorem performFieldWrite_isStored (p : Publish) (f : FieldWrite) (m : Memory) : p.IsStored f (performFieldWrite p f m) :=
  fun _ _ h => performFieldWrite_readByte_of_some h m

/-- A number of 16 bits is its two bytes. -/
theorem half_eq_append_bytes (x : Half) : x.extractLsb' 8 8 ++ x.extractLsb' 0 8 = x :=
  (BitVec.extractLsb'_append_extractLsb'_eq_extractLsb' (start₁ := 0) (len₁ := 8) rfl).trans BitVec.extractLsb'_eq_self

/-- A word is its four bytes side by side. -/
theorem word_eq_append_bytes (x : Word) :
    x.extractLsb' 24 8 ++ x.extractLsb' 16 8 ++ x.extractLsb' 8 8 ++ x.extractLsb' 0 8 = x := by
  refine word_eq_of_bytes fun k hk => ?_
  rw [bytes_append _ _ _ _ k hk]
  match k with
  | 0 | 1 | 2 | 3 => rfl

section
variable {p : Publish} {u : State}

theorem Publish.IsStored.slotOpcode (h : p.IsStored .opcode u.pool) : u.slotOpcode p.slot = p.opcode :=
  h (opcodeAddr p.slot) p.opcode (by simp [storedByte])

theorem Publish.IsStored.slotData {j : Fin bufBytes} (h : p.IsStored (.data j) u.pool) : u.slotData p.slot j = p.data[j] :=
  h (dataAddr p.slot j) p.data[j] (by simp [storedByte])

theorem Publish.IsStored.slotParam (h : p.IsStored .param u.pool) : u.slotParam p.slot = p.param := by
  rw [State.slotParam, h (paramAddr p.slot) (p.param.extractLsb' 0 8) (by simp [storedByte]),
    h (paramAddr p.slot + 1) (p.param.extractLsb' 8 8) (by simp [storedByte])]
  exact half_eq_append_bytes p.param

theorem Publish.IsStored.slotRxTime (h : p.IsStored .rxTime u.pool) : u.slotRxTime p.slot = p.rxTime := by
  rw [State.slotRxTime, h (rxTimeAddr p.slot) (p.rxTime.extractLsb' 0 8) (by simp [storedByte]),
    h (rxTimeAddr p.slot + 1) (p.rxTime.extractLsb' 8 8) (by simp [storedByte]),
    h (rxTimeAddr p.slot + 2) (p.rxTime.extractLsb' 16 8) (by simp [storedByte]),
    h (rxTimeAddr p.slot + 3) (p.rxTime.extractLsb' 24 8) (by simp [storedByte])]
  exact word_eq_append_bytes p.rxTime

end

/-! ### The choice among the pending field writes (log 2) -/

/-- The state after a field write of the record. -/
def afterFieldWrite (p : Publish) (f : FieldWrite) (s : State) : State :=
  { s with pool := performFieldWrite p f s.pool, pub := some { p with pending := p.pending.erase f } }

/-- A publish event after the check takes one element of W. -/
theorem publishEvent_takes {p : Publish} (hc : p.checked = true) (hw : p.pending ≠ []) (hnodup : p.pending.Nodup) (k : Nat)
    (s : State) : ∃ f ∈ p.pending, publishEvent k p s = afterFieldWrite p f s := by
  obtain ⟨i, hi, -, he⟩ := publishEvent_field k p s hc hw
  refine ⟨p.pending[i], List.getElem_mem hi, ?_⟩
  rw [he, afterFieldWrite, hnodup.erase_getElem i hi]

/-- Each element of W is the one taken for some choice. -/
theorem exists_publishEvent_takes {p : Publish} {f : FieldWrite} (hc : p.checked = true) (hf : f ∈ p.pending) :
    ∃ k, ∀ s, publishEvent k p s = afterFieldWrite p f s := by
  refine ⟨p.pending.idxOf f, fun s => ?_⟩
  obtain ⟨i, hi, hk, he⟩ := publishEvent_field (p.pending.idxOf f) p s hc (List.ne_nil_of_mem hf)
  rw [Nat.mod_eq_of_lt (List.idxOf_lt_length_of_mem hf)] at hk
  subst hk
  rw [he, afterFieldWrite, List.erase_eq_eraseIdx_of_idxOf rfl, List.getElem_idxOf]

/-! ### A publish from its check to its last event (R241, R242) -/

theorem runSteps_succ {s v : State} (h : step s = .next v) (n : Nat) : runSteps (n + 1) s = runSteps n v := by
  rw [runSteps, h]

theorem runSteps_add {s v : State} : ∀ {n : Nat}, runSteps n s = .next v → ∀ m, runSteps (n + m) s = runSteps m v
  | 0, h, m => by
    cases h
    rw [Nat.zero_add]
  | n + 1, h, m => by
    rw [runSteps] at h
    split at h
    · rename_i x hx
      rw [Nat.succ_add, runSteps_succ hx, runSteps_add h]
    · cases h
    · cases h

/-- The publish of p that was pending in s is under way in v: the check is done, the field writes in W are still to be made, all
others are, and no other byte of POOL has changed. -/
structure PublishProgress (s : State) (p : Publish) (W : List FieldWrite) (v : State) : Prop where
  pub : v.pub = some { p with checked := true, pending := W }
  producerIn : v.producerIn = s.producerIn
  overrunCount : v.overrunCount = if s.slotValid p.slot = 1 then s.overrunCount + 1 else s.overrunCount
  nodup : W.Nodup
  stored : ∀ f, f ∉ W → p.IsStored f v.pool
  kept : ∀ a, (∀ f, p.storedByte f a = none) → v.pool.readByte a = s.pool.readByte a

section
variable {s v : State} {p : Publish} {W : List FieldWrite} {k : Nat} {rest : List Turn}

/-- The first event (R241). -/
theorem publishProgress_check (hp : s.pub = some p) (hc : p.checked = false) (hw : CompleteW p.pending)
    (ht : s.turns = .producer k :: rest) :
    ∃ v, step s = .next v ∧ v.turns = rest ∧ PublishProgress s p p.pending v := by
  refine ⟨_, step_publish s k rest p ht hp, ?_⟩
  rw [publishEvent_check k p _ hc]
  exact ⟨rfl, rfl, rfl, rfl, hw.1, fun f hf => absurd (hw.2 f) hf, fun a _ => rfl⟩

/-- A field write (R242). -/
theorem PublishProgress.step_field (h : PublishProgress s p W v) (hw : W ≠ []) (ht : v.turns = .producer k :: rest) :
    ∃ (u : State) (W' : List FieldWrite), step v = .next u ∧ u.turns = rest ∧ W'.length + 1 = W.length ∧
      PublishProgress s p W' u := by
  obtain ⟨f, hf, he⟩ := publishEvent_takes (p := { p with checked := true, pending := W }) rfl hw h.nodup k
    { v with turns := rest, pick := k }
  have hlen := List.length_erase_add_one hf
  refine ⟨_, W.erase f, step_publish v k rest _ ht h.pub, ?_⟩
  rw [he]
  refine ⟨rfl, hlen, rfl, h.producerIn, h.overrunCount, h.nodup.erase f, fun g hg a b hb => ?_, fun a ha => ?_⟩
  · by_cases hgf : g = f
    · subst hgf
      exact performFieldWrite_readByte_of_some (p := { p with checked := true, pending := W }) hb v.pool
    · have hgW : g ∉ W := fun hgW => hg ((h.nodup.mem_erase_iff).2 ⟨hgf, hgW⟩)
      have hnone : p.storedByte f a = none := by
        rw [Option.eq_none_iff_forall_ne_some]
        intro c hc
        obtain ⟨-, -, -, hfa⟩ := Publish.storedByte_eq_some hc
        obtain ⟨-, -, -, hga⟩ := Publish.storedByte_eq_some hb
        exact hgf (hga.trans hfa.symm)
      exact (performFieldWrite_readByte_of_none (p := { p with checked := true, pending := W }) hnone v.pool).trans
        (h.stored g hgW a b hb)
  · exact (performFieldWrite_readByte_of_none (p := { p with checked := true, pending := W }) (ha f) v.pool).trans
      (h.kept a ha)

/-- As many field writes as there are turns, up to all of W. -/
theorem PublishProgress.run : ∀ (picks : List Nat) {v : State} {W : List FieldWrite}, PublishProgress s p W v →
    picks.length ≤ W.length → v.turns = picks.map Turn.producer ++ rest →
    ∃ (u : State) (W' : List FieldWrite), runSteps picks.length v = .next u ∧ u.turns = rest ∧
      W'.length + picks.length = W.length ∧ PublishProgress s p W' u
  | [], v, W, h, _, ht => ⟨v, W, rfl, ht, rfl, h⟩
  | k :: picks, v, W, h, hle, ht => by
    rw [List.length_cons] at hle
    obtain ⟨x, W₁, hx, hturns, hlen, hprogress⟩ :=
      h.step_field (List.ne_nil_of_length_pos (by omega)) ht
    obtain ⟨u, W', hrun, hrest, hlen', hu⟩ := PublishProgress.run picks hprogress (by omega) hturns
    refine ⟨u, W', ?_, hrest, by rw [List.length_cons]; omega, hu⟩
    rw [List.length_cons, runSteps_succ hx, hrun]

/-- The last event (R242): the slot holds the record with `valid` 1, and every other byte is as before. -/
theorem PublishProgress.step_last (h : PublishProgress s p [] v) (ht : v.turns = .producer k :: rest) :
    ∃ u : State, step v = .next u ∧ u.pub = none ∧ u.turns = rest ∧ u.producerIn = s.producerIn ∧
      u.slotValid p.slot = 1 ∧ u.slotOpcode p.slot = p.opcode ∧ u.slotParam p.slot = p.param ∧
      u.slotRxTime p.slot = p.rxTime ∧ (∀ j, u.slotData p.slot j = p.data[j]) ∧
      (∀ a, ¬ (slotBase p.slot ≤ a ∧ a < slotBase p.slot + 0x408) → u.pool.readByte a = s.pool.readByte a) ∧
      u.overrunCount = if s.slotValid p.slot = 1 then s.overrunCount + 1 else s.overrunCount := by
  have hread (a : Nat) (ha : a ≠ validAddr p.slot) :
      (v.pool.writeByte (validAddr p.slot) 1).readByte a = v.pool.readByte a := by
    rw [Memory.readByte_writeByte, if_neg ha]
  have hstored (f : FieldWrite) : p.IsStored f (v.pool.writeByte (validAddr p.slot) 1) := fun a b hb => by
    obtain ⟨-, -, hne, -⟩ := Publish.storedByte_eq_some hb
    rw [hread a hne]
    exact h.stored f List.not_mem_nil a b hb
  refine ⟨_, step_publish v k rest _ ht h.pub, ?_⟩
  rw [publishEvent_last k { p with checked := true, pending := [] } { v with turns := rest, pick := k } rfl rfl]
  have hvalid : (v.pool.writeByte (validAddr p.slot) 1).readByte (validAddr p.slot) = 1 := by
    rw [Memory.readByte_writeByte, if_pos rfl]
  refine ⟨rfl, rfl, h.producerIn, hvalid, (hstored .opcode).slotOpcode, (hstored .param).slotParam,
    (hstored .rxTime).slotRxTime, fun j => (hstored (.data j)).slotData, fun a ha => ?_, h.overrunCount⟩
  have hne : a ≠ validAddr p.slot := by
    rintro rfl
    exact ha ⟨by rw [validAddr]; omega, by rw [validAddr]; omega⟩
  exact (hread a hne).trans (h.kept a (Publish.storedByte_eq_none (.inl ha)))

end

/-- The field writes of a complete W: the 1024 bytes of `data` and the three other fields (R240). -/
theorem CompleteW.length {W : List FieldWrite} (h : CompleteW W) : W.length = 1027 := by
  have hperm : W.Perm allFieldWrites :=
    (List.perm_ext_iff_of_nodup h.1 allFieldWrites_nodup).2 fun f => iff_of_true (h.2 f) (mem_allFieldWrites f)
  rw [hperm.length_eq, allFieldWrites, List.length_append, List.length_map, List.length_finRange]
  rfl

/-! ### What a step can write of POOL -/

/-- m' is m but for `valid` bytes that are cleared. -/
def OnlyClearsValid (m m' : Memory) : Prop :=
  ∀ a, m'.readByte a = m.readByte a ∨ (m'.readByte a = 0 ∧ ∃ k, a = validAddr k)

theorem OnlyClearsValid.rfl' (m : Memory) : OnlyClearsValid m m := fun _ => .inl rfl

theorem clearAllValid_onlyClearsValid (m : Memory) : OnlyClearsValid m (clearAllValid m) := by
  intro a
  rw [clearAllValid_readByte]
  split
  · rename_i h
    exact .inr ⟨rfl, h⟩
  · exact .inl rfl

/-- A consumer's write to a `valid` byte (R102). -/
theorem writeZero_onlyClearsValid (m : Memory) {addr : BitVec 13} (h : addr.toNat % 0x800 = 0x400) :
    OnlyClearsValid m (m.writeByte addr.toNat 0) := by
  intro a
  have haddr := addr.isLt
  rw [Memory.readByte_writeByte]
  split
  · refine .inr ⟨rfl, ⟨addr.toNat / 0x800, by unfold poolSlots; omega⟩, ?_⟩
    simp only [validAddr, slotBase]
    omega
  · exact .inl rfl

theorem CommandEffect.onlyClearsValid {s t : State} (h : CommandEffect s t) : OnlyClearsValid s.pool t.pool := by
  cases h with
  | reset => exact clearAllValid_onlyClearsValid s.pool
  | nothing | status _ | accept _ _ _ => exact .rfl' s.pool

/-- A transaction that is not held clears `valid` bytes of POOL at most. -/
theorem exec_onlyClearsValid {s u : State} {i : Instr} (he : exec i s = .next u)
    (hp : i.agent = .producer → s.pub = none) : OnlyClearsValid s.pool u.pool := by
  cases hi : i.agent with
  | consumer =>
    obtain ⟨m, r, hx, hm⟩ := exec_consumer i s hi
    rw [hx] at he
    cases he
    rcases hm with rfl | ⟨addr, haddr, rfl⟩
    · exact .rfl' s.pool
    · exact writeZero_onlyClearsValid s.pool haddr
  | producer =>
    rcases exec_producer_effect i s u hi (hp hi) he with ⟨b, t, rfl⟩ | ⟨r, t, rfl, hc | ⟨j, w, v, -, -, rfl⟩⟩
    · rw [(exec_feed_frame s u b t (hp hi) he).pool]
      exact .rfl' s.pool
    · exact hc.onlyClearsValid
    · exact .rfl' s.pool

/-- Everything a step can do to POOL: clear `valid` bytes, perform a field write, or set `valid` of the slot it publishes to. -/
theorem step_pool_cases {s u : State} (h : step s = .next u) :
    OnlyClearsValid s.pool u.pool ∨
    ∃ p, s.pub = some p ∧ p.checked = true ∧
      ((p.pending ≠ [] ∧ ∃ f, u.pool = performFieldWrite p f s.pool) ∨
        (p.pending = [] ∧ u.pub = none ∧ u.pool = s.pool.writeByte (validAddr p.slot) 1)) := by
  rcases step_cases s u h with ⟨-, rfl⟩ | ⟨k, rest, p, -, hp, rfl⟩ | ⟨k, rest, -, -, -, rfl⟩ |
    ⟨k, rest, w, ws, i, -, hp, -, -, -, he⟩ | ⟨rest, -, -, rfl⟩ | ⟨rest, w, ws, i, -, -, -, hi, he⟩
  · exact .inl (.rfl' _)
  · cases hc : p.checked with
    | false =>
      rw [publishEvent_check k p _ hc]
      exact .inl (.rfl' s.pool)
    | true =>
      refine .inr ⟨p, hp, hc, ?_⟩
      by_cases hw : p.pending = []
      · rw [publishEvent_last k p _ hc hw]
        exact .inr ⟨hw, rfl, rfl⟩
      · obtain ⟨i, hi, -, hx⟩ := publishEvent_field k p { s with turns := rest, pick := k } hc hw
        rw [hx]
        exact .inl ⟨hw, p.pending[i], rfl⟩
  · exact .inl (.rfl' s.pool)
  · have hclear := exec_onlyClearsValid he fun _ => hp
    exact .inl hclear
  · exact .inl (.rfl' s.pool)
  · have hclear := exec_onlyClearsValid he fun hprod => nomatch hi.symm.trans hprod
    exact .inl hclear

/-! ### The fields of a slot as bytes (R93) -/

/-- Some field of slot k other than `valid` reads differently. -/
def FieldChanged (k : Fin poolSlots) (s u : State) : Prop :=
  u.slotOpcode k ≠ s.slotOpcode k ∨ u.slotParam k ≠ s.slotParam k ∨ u.slotRxTime k ≠ s.slotRxTime k ∨
    ∃ j, u.slotData k j ≠ s.slotData k j

/-- The fields of a slot are its bytes other than `valid`. -/
theorem not_fieldChanged {k : Fin poolSlots} {s u : State}
    (h : ∀ o, o < 0x408 → o ≠ 0x400 → u.pool.readByte (slotBase k + o) = s.pool.readByte (slotBase k + o)) :
    ¬ FieldChanged k s u := by
  rintro (hne | hne | hne | ⟨j, hne⟩)
  · exact hne (h 0x401 (by decide) (by decide))
  · refine hne (congrArg₂ (· ++ ·) (h 0x403 (by decide) (by decide)) (h 0x402 (by decide) (by decide)))
  · refine hne (congrArg₂ (· ++ ·) (congrArg₂ (· ++ ·) (congrArg₂ (· ++ ·) ?_ ?_) ?_) ?_)
    · exact h 0x407 (by decide) (by decide)
    · exact h 0x406 (by decide) (by decide)
    · exact h 0x405 (by decide) (by decide)
    · exact h 0x404 (by decide) (by decide)
  · have hj := j.isLt
    unfold bufBytes at hj
    exact hne (h j.val (by omega) (by omega))

/-- Slots do not overlap. -/
theorem slotBase_add_ne {k l : Fin poolSlots} (hkl : k ≠ l) {o : Nat} (ho : o < 0x800) :
    ¬ (slotBase l ≤ slotBase k + o ∧ slotBase k + o < slotBase l + 0x800) := by
  have hne : k.val ≠ l.val := fun he => hkl (Fin.ext he)
  unfold slotBase
  omega

/-- An address of a slot's other fields is no `valid` byte. -/
theorem slotBase_add_ne_validAddr {k l : Fin poolSlots} {o : Nat} (ho : o < 0x408) (hne : o ≠ 0x400) :
    slotBase k + o ≠ validAddr l := by
  unfold validAddr slotBase
  omega

section
variable {s u : State} {k : Fin poolSlots}

theorem OnlyClearsValid.not_fieldChanged (h : OnlyClearsValid s.pool u.pool) : ¬ FieldChanged k s u :=
  Machine.not_fieldChanged fun _ ho hne =>
    (h _).resolve_right fun ⟨_, _, hl⟩ => slotBase_add_ne_validAddr ho hne hl

/-- A field write changes fields of its own slot alone. -/
theorem performFieldWrite_fieldChanged {p : Publish} {f : FieldWrite} (h : u.pool = performFieldWrite p f s.pool)
    (hch : FieldChanged k s u) : p.slot = k := by
  by_contra hne
  refine not_fieldChanged (fun o ho _ => ?_) hch
  rw [h]
  refine performFieldWrite_readByte_of_none (Publish.storedByte_eq_none (.inl fun hin => ?_) f) s.pool
  exact slotBase_add_ne (Ne.symm hne) (o := o) (by omega) ⟨hin.1, by omega⟩

/-- A field write changes no `valid` byte. -/
theorem performFieldWrite_slotValid {p : Publish} {f : FieldWrite} (h : u.pool = performFieldWrite p f s.pool) :
    u.slotValid k = s.slotValid k := by
  rw [State.slotValid, State.slotValid, h]
  refine performFieldWrite_readByte_of_none (Publish.storedByte_eq_none ?_ f) s.pool
  by_cases hk : k = p.slot
  · exact .inr (hk ▸ rfl)
  · refine .inl fun hin => slotBase_add_ne hk (o := 0x400) (by decide) ⟨hin.1, ?_⟩
    have hlt : validAddr k < slotBase p.slot + 0x408 := hin.2
    rw [validAddr] at hlt
    omega

/-- The last event changes no other field. -/
theorem writeValid_not_fieldChanged {l : Fin poolSlots} (h : u.pool = s.pool.writeByte (validAddr l) 1) :
    ¬ FieldChanged k s u := by
  refine not_fieldChanged fun o ho hne => ?_
  rw [h, Memory.readByte_writeByte, if_neg (slotBase_add_ne_validAddr ho hne)]

/-- The last event changes `valid` of its own slot alone, to 1. -/
theorem writeValid_slotValid {l : Fin poolSlots} (h : u.pool = s.pool.writeByte (validAddr l) 1)
    (hch : u.slotValid k ≠ s.slotValid k) : u.slotValid k = 1 ∧ l = k := by
  rw [State.slotValid, State.slotValid, h, Memory.readByte_writeByte] at hch
  rw [State.slotValid, h, Memory.readByte_writeByte]
  split at hch
  · rename_i heq
    refine ⟨if_pos heq, Fin.ext ?_⟩
    simp only [validAddr, slotBase] at heq
    omega
  · exact absurd rfl hch

end

/-! ### A consumer's turn that reads a slot's `rxTime` (R247) -/

/-- A word encoded from a transaction runs it. -/
theorem runWord_encode {i : Instr} (hwf : i.wellFormed = true) (s : State) : runWord i.agent (encode i) s = exec i s :=
  runWord_ok i.agent (encode i) i s (decodeInvertsEncode i hwf) rfl

theorem step_consumer_readsRxTime {s : State} {k : Fin poolSlots} {rest : List Turn} {ws : List TransWord}
    (ht : s.turns = .consumer :: rest)
    (hw : s.consumerIn = encode (.poolRead32 (BitVec.ofNat 13 (rxTimeAddr k))) :: ws) :
    ∃ u, step s = .next u ∧ u.consumerResp = some ⟨.ok, s.slotRxTime k⟩ := by
  have hrun := (runWord_encode (i := .poolRead32 (BitVec.ofNat 13 (rxTimeAddr k))) rfl
    { s with turns := rest, consumerIn := ws }).trans (exec_poolRead32_rxTimeAddr _ k)
  exact ⟨_, (step_consumer s rest _ ws ht hw).trans hrun, rfl⟩

end Sys2Proof.Machine

open Sys2Proof Sys2Proof.Machine

/-- Settles O24: the event takes an element of W, whose bytes are those of `storedByte`; its place in W is a choice that takes it. -/
theorem fieldWritesInAnyOrder : Obligations.FieldWritesInAnyOrder := by
  refine fun s p rest hp hc hw hnodup => ⟨fun k ht => ?_, fun f hf => ?_⟩
  · obtain ⟨f, hf, he⟩ := publishEvent_takes hc hw hnodup k { s with turns := rest, pick := k }
    refine ⟨f, hf, performFieldWrite p f s.pool, ?_, ?_, performFieldWrite_readByte p f s.pool⟩
    · rw [step_publish s k rest p ht hp, he]
      rfl
    · exact performFieldWrite_readByte_of_none (Publish.storedByte_eq_none (.inr rfl) f) s.pool
  · obtain ⟨k, he⟩ := exists_publishEvent_takes hc hf
    refine ⟨k, performFieldWrite p f s.pool, ?_⟩
    rw [step_publish { s with turns := .producer k :: rest } k rest p rfl hp, he]
    rfl

/-- Settles O25: the event of a checked record with W empty, and the law of read after write. -/
theorem validIsTheLastPublishEvent : Obligations.ValidIsTheLastPublishEvent := by
  intro s p k rest hp hc hw ht
  refine ⟨s.pool.writeByte (validAddr p.slot) 1, Memory.readByte_writeByte s.pool _ 1, ?_⟩
  rw [step_publish s k rest p ht hp, publishEvent_last k p _ hc hw]

/-- Settles O26: the check, the field writes by induction on the turns, and the last event; every field write is then done, and
each byte of the slot's fields is stored by exactly one of them. -/
theorem publishTakes1029ProducerTurnsInAnyOrder : Obligations.PublishTakes1029ProducerTurnsInAnyOrder := by
  intro s p picks rest hp hc hw hlen ht
  obtain ⟨k, picks, rfl⟩ := List.exists_cons_of_ne_nil (List.ne_nil_of_length_pos (by omega : 0 < picks.length))
  rw [List.length_cons] at hlen
  obtain ⟨v, hv, hturns, hprogress⟩ := publishProgress_check hp hc hw ht
  have hfields := hw.length
  have hrun (m : Nat) (hm : m ≤ 1027) :
      ∃ (u : State) (W : List FieldWrite), runSteps (m + 1) s = .next u ∧
        u.turns = (picks.drop m).map Turn.producer ++ rest ∧ W.length + m = 1027 ∧ PublishProgress s p W u := by
    have htake : (picks.take m).length = m := by
      rw [List.length_take]
      omega
    obtain ⟨u, W, hu, hrest, hlenW, hprog⟩ :=
      hprogress.run (picks.take m) (rest := (picks.drop m).map Turn.producer ++ rest) (by omega) (by
        rw [hturns, ← List.append_assoc, ← List.map_append, List.take_append_drop]
        rfl)
    rw [htake] at hu hlenW
    exact ⟨u, W, (runSteps_succ hv m).trans hu, hrest, hlenW.trans hfields, hprog⟩
  refine ⟨fun n hn => ?_, ?_⟩
  · cases n with
    | zero => exact ⟨s, p, rfl, hp, rfl⟩
    | succ m =>
      obtain ⟨u, W, hu, -, -, hprog⟩ := hrun m (by omega)
      exact ⟨u, _, hu, hprog.pub, hprog.producerIn⟩
  · obtain ⟨x, W, hx, hrest, hlenW, hprog⟩ := hrun 1027 (Nat.le_refl _)
    obtain rfl : W = [] := List.length_eq_zero_iff.1 (by omega)
    obtain ⟨last, hlast⟩ := List.length_eq_one_iff.1 (show (picks.drop 1027).length = 1 by rw [List.length_drop]; omega)
    rw [hlast] at hrest
    obtain ⟨u, hu, hafter⟩ := hprog.step_last hrest
    refine ⟨u, ?_, hafter⟩
    rw [runSteps_add hx 1, runSteps_succ hu]
    rfl

/-- Settles O27: the record's slot is `writeIndex` mod 4, and 4 divides 2^32. -/
theorem publishesCycleThroughTheSlots : Obligations.PublishesCycleThroughTheSlots := by
  intro s spec
  have hnext : (s.writeIndex + 1).toNat = (s.writeIndex.toNat + 1) % 2 ^ 32 := BitVec.toNat_add _ _
  refine ⟨_, _, completeFrame_pub s spec, completeFrame_pub (completeFrame spec s) spec, rfl, ?_, hnext⟩
  show (s.writeIndex + 1).toNat % 4 = (s.writeIndex.toNat % 4 + 1) % 4
  omega

/-- Settles O28: of all that a step can do to POOL, only a field write changes a field, and only its last event sets `valid`. -/
theorem onlyAPublishWritesASlot : Obligations.OnlyAPublishWritesASlot := by
  refine fun s u k h => ⟨fun hch => ?_, fun hch => ?_⟩ <;>
    rcases step_pool_cases h with hclear | ⟨p, hp, hc, ⟨hw, f, hpool⟩ | ⟨hw, hpub, hpool⟩⟩
  · exact absurd hch hclear.not_fieldChanged
  · exact ⟨p, hp, performFieldWrite_fieldChanged hpool hch, hc, hw, performFieldWrite_slotValid hpool⟩
  · exact absurd hch (writeValid_not_fieldChanged hpool)
  · rcases hclear (validAddr k) with hsame | ⟨hzero, -⟩
    · exact absurd hsame hch
    · exact .inl hzero
  · exact absurd (performFieldWrite_slotValid hpool) hch
  · obtain ⟨hone, hslot⟩ := writeValid_slotValid hpool hch
    exact .inr ⟨hone, hpub, p, hp, hslot, hc, hw⟩

/-- Settles O29: the read before the record's `rxTime` write, and the read after a turn that chooses it. -/
theorem tornReadIsPossible : Obligations.TornReadIsPossible := by
  intro s p cs hp hc hf hin
  refine ⟨?_, ?_⟩
  · obtain ⟨u, hu, hresp⟩ := step_consumer_readsRxTime (s := { s with turns := [.consumer] }) rfl hin
    exact ⟨u, by rw [runSteps_succ hu]; rfl, hresp⟩
  · obtain ⟨k, he⟩ := exists_publishEvent_takes hc hf
    have hwrite := step_publish { s with turns := [.producer k, .consumer] } k [.consumer] p rfl hp
    rw [he] at hwrite
    obtain ⟨u, hu, hresp⟩ := 
      step_consumer_readsRxTime (s := afterFieldWrite p .rxTime { s with turns := [.consumer], pick := k }) rfl hin
    have hnew : (afterFieldWrite p .rxTime { s with turns := [.consumer], pick := k }).slotRxTime p.slot = p.rxTime :=
      Publish.IsStored.slotRxTime (performFieldWrite_isStored p .rxTime s.pool)
    rw [hnew] at hresp
    exact ⟨k, u, by rw [runSteps_succ hwrite, runSteps_succ hu]; rfl, hresp⟩
end

section
/-! SUPPORT. A DATA_RAW and a DATA_BIPHASE_S frame as a whole (41_collector.md R196, R197, R207 to R209): the progress that FEED after
FEED makes up to the publish. -/

namespace Sys2Proof.Machine

/-! ### FEED after FEED -/

/-- A frame of N FEEDs after those of `fed`: in progress before the last, scheduled at the last. -/
def FrameAfter (N : Nat) (InProgress Scheduled : List Bool → State → Prop) (fed : List Bool) (u : State) : Prop :=
  (fed.length < N → InProgress fed u) ∧ (fed.length = N → Scheduled fed u)

/-- If one FEED takes a frame in progress one bit further, FEEDs up to its length take it as far. -/
theorem feedAll_frameAfter {N : Nat} {InProgress Scheduled : List Bool → State → Prop}
    (hshort : ∀ fed u, InProgress fed u → fed.length < N)
    (hstep : ∀ fed u b t, InProgress fed u →
      ∃ v, exec (.feed b t) u = .next v ∧ FrameAfter N InProgress Scheduled (fed ++ [b]) v) :
    ∀ (feeds : List (Bool × Word)) (fed : List Bool) (u : State), InProgress fed u → fed.length + feeds.length ≤ N →
      ∃ v, feedAll feeds u = .next v ∧ FrameAfter N InProgress Scheduled (fed ++ feeds.map Prod.fst) v
  | [], fed, u, h, _ => by
    rw [List.map_nil, List.append_nil]
    exact ⟨u, rfl, fun _ => h, fun heq => absurd heq (Nat.ne_of_lt (hshort fed u h))⟩
  | (b, t) :: rest, fed, u, h, hle => by
    obtain ⟨v, hexec, hafter⟩ := hstep fed u b t h
    rw [List.map_cons, List.append_cons fed b]
    simp only [feedAll, hexec]
    cases rest with
    | nil =>
      rw [List.map_nil, List.append_nil]
      exact ⟨v, rfl, hafter⟩
    | cons c rest =>
      simp only [List.length_cons] at hle
      have hlen : (fed ++ [b]).length = fed.length + 1 := by rw [List.length_append, List.length_singleton]
      exact feedAll_frameAfter hshort hstep (c :: rest) (fed ++ [b]) v (hafter.1 (by omega))
        (by rw [List.length_cons]; omega)

/-! ### The payload bits of an MSB-first frame (R191, R197) -/

theorem holdsInOrder_msbFirst_iff (spec : PatternSpec) (bits : List Bool) (before data : Buffer) :
    HoldsInOrder false spec bits before data ↔ HoldsMsbFirst spec bits before data := by
  refine forall₃_congr fun x p _ => ?_
  simp only [Bool.false_eq_true, if_false]
  cases bits[8 * (x.val - spec.startOffset.toNat) + (7 - p)]? <;> rfl

/-- An MSB-first frame that started in s is in progress in u: `bits` are placed and counted. -/
structure MsbProgress (s : State) (spec : PatternSpec) (mode : Mode) (bits : List Bool) (u : State) : Prop where
  unfinished : bits.length < spec.frameLengthBits.toNat
  pub : u.pub = none
  mode_eq : u.mode = mode
  active : u.activeSpec = some spec
  count : u.bitCount.toNat = bits.length
  rxTime : u.rxTimeLatch = s.rxTimeLatch
  param : u.curParam = s.curParam
  placed : spec.subBlockBits = 0 → PlacedInOrder false spec bits s.stage u

/-- An MSB-first frame that started in s has just been scheduled for publication in u, with the payload `bits` (R220, R240). -/
def MsbScheduled (s : State) (spec : PatternSpec) (bits : List Bool) (u : State) : Prop :=
  u.mode = .hunt ∧ ∃ p, u.pub = some p ∧ p.checked = false ∧ CompleteW p.pending ∧ p.opcode = spec.id ∧
    p.rxTime = s.rxTimeLatch ∧
    (spec.subBlockBits = 0 → spec.postProcess = 0 →
      p.param = s.curParam ∧ HoldsMsbFirst spec bits s.stage p.data)

theorem FreshFrame.msbProgress {s : State} {i : Nat} {spec : PatternSpec} {mode : Mode} (h : FreshFrame s i spec mode) :
    MsbProgress s spec mode [] s := by
  obtain ⟨hpub, hmode, hact, htable, hbits, hsub, hbase, -, -, hlength, -⟩ := h
  refine ⟨Nat.pos_of_ne_zero fun hz => hlength (BitVec.eq_of_toNat_eq hz), hpub, hmode,
    by simp [State.activeSpec, hact, htable], by rw [hbits]; rfl, rfl, rfl,
    fun _ => ⟨hbase, by rw [hsub]; rfl, holdsInOrder_nil false spec s.stage⟩⟩

section
variable {s u : State} {spec : PatternSpec} {mode : Mode} {bits : List Bool}

/-- Neither the window, the held half-bit nor the response matters to the placed bits. -/
theorem MsbProgress.window_half_respond (h : MsbProgress s spec mode bits u) (w : BitVec winBits) (half : Option Bool)
    (r : Option Response) : MsbProgress s spec mode bits { u with window := w, half := half, producerResp := r } :=
  ⟨h.unfinished, h.pub, h.mode_eq, h.active, h.count, h.rxTime, h.param, h.placed⟩

/-- A payload bit is placed and counted, and the last one completes the frame (R196, R207). -/
theorem MsbProgress.payloadBit (h : MsbProgress s spec mode bits u) (hm : mode ≠ .dataUart8N1) (d : Bool) :
    ((bits ++ [d]).length < spec.frameLengthBits.toNat →
      completeIfFull spec (countBit (putBit spec d u)) = countBit (putBit spec d u) ∧
      MsbProgress s spec mode (bits ++ [d]) (countBit (putBit spec d u))) ∧
    ((bits ++ [d]).length = spec.frameLengthBits.toNat →
      MsbScheduled s spec (bits ++ [d]) (completeIfFull spec (countBit (putBit spec d u)))) := by
  have hF := spec.frameLengthBits.isLt
  have hlen := h.unfinished
  have hcount : (countBit (putBit spec d u)).bitCount.toNat = (bits ++ [d]).length := by
    rw [countBit_bitCount, putBit_bitCount, List.length_append]
    exact half_toNat_add_one h.count (by omega)
  have hplaced (hsub : spec.subBlockBits = 0) :=
    (h.placed hsub).putBit hsub (decide_eq_false fun he => hm (h.mode_eq.symm.trans he)) (by omega) d
  refine ⟨fun hlt => ⟨if_neg fun he => ?_, hlt, h.pub, h.mode_eq, h.active, hcount, h.rxTime, h.param, hplaced⟩,
    fun heq => ?_⟩
  · rw [he] at hcount
    omega
  · obtain ⟨p, hp, hchecked, hpending, hid, htime, hhook⟩ := completeFrame_publishes spec (countBit (putBit spec d u))
    rw [completeIfFull, if_pos (BitVec.eq_of_toNat_eq (hcount.trans heq))]
    refine ⟨rfl, p, hp, hchecked, hpending, hid, htime.trans h.rxTime, fun hsub hz => ?_⟩
    obtain ⟨hparam, hdata⟩ := hhook hz
    obtain ⟨-, -, hholds⟩ := hplaced hsub
    exact ⟨hparam.trans h.param, hdata ▸ (holdsInOrder_msbFirst_iff ..).1 hholds⟩

end

/-! ### DATA_RAW (R196) -/

theorem rawStep_frameAfter {s u : State} {spec : PatternSpec} {fed : List Bool} (h : MsbProgress s spec .dataRaw fed u)
    (b : Bool) (t : Word) :
    ∃ v, exec (.feed b t) u = .next v ∧
      FrameAfter spec.frameLengthBits.toNat (MsbProgress s spec .dataRaw) (MsbScheduled s spec) (fed ++ [b]) v := by
  refine ⟨_, exec_feed_raw t h.pub h.mode_eq h.active (shiftWindow_isShift b u), fun hlt => ?_, fun heq => ?_⟩
  all_goals
    have hbit := (h.window_half_respond (shiftWindow b u).window u.half u.producerResp).payloadBit (by decide) b
  · obtain ⟨heq, hprogress⟩ := hbit.1 hlt
    rw [rawStep, heq]
    exact hprogress.window_half_respond _ _ (some okResponse)
  · exact hbit.2 heq

/-! ### DATA_BIPHASE_S (R207, R208) -/

/-- What one half-bit makes of the bits decoded so far and the half-bit held. -/
def biphaseTake (acc : List Bool × Option Bool) (b : Bool) : List Bool × Option Bool :=
  match acc.2 with
  | none => (acc.1, some b)
  | some h => (acc.1 ++ [h ^^ b], none)

/-- The bits decoded from half-bits, and the half-bit held after them. -/
def biphaseDecode (fed : List Bool) : List Bool × Option Bool := fed.foldl biphaseTake ([], none)

theorem biphaseDecode_append_of_none {fed : List Bool} (h : (biphaseDecode fed).2 = none) (b : Bool) :
    biphaseDecode (fed ++ [b]) = ((biphaseDecode fed).1, some b) := by
  simp only [biphaseDecode, List.foldl_concat] at h ⊢
  simp only [biphaseTake, h]

theorem biphaseDecode_append_of_some {fed : List Bool} {x : Bool} (h : (biphaseDecode fed).2 = some x) (b : Bool) :
    biphaseDecode (fed ++ [b]) = ((biphaseDecode fed).1 ++ [x ^^ b], none) := by
  simp only [biphaseDecode, List.foldl_concat] at h ⊢
  simp only [biphaseTake, h]

/-- How many half-bits made the bits decoded so far and the half-bit held. -/
def halfBitsTaken (acc : List Bool × Option Bool) : Nat := 2 * acc.1.length + acc.2.toList.length

/-- Each half-bit is held, or makes a bit of the one held. -/
theorem halfBitsTaken_biphaseTake (acc : List Bool × Option Bool) (b : Bool) :
    halfBitsTaken (biphaseTake acc b) = halfBitsTaken acc + 1 := by
  obtain ⟨bits, _ | x⟩ := acc
  · rfl
  · simp only [halfBitsTaken, biphaseTake, List.length_append, List.length_singleton, Option.toList_none,
      Option.toList_some, List.length_nil]
    omega

theorem halfBitsTaken_biphaseDecode (fed : List Bool) : halfBitsTaken (biphaseDecode fed) = fed.length := by
  have hfold : ∀ (fed : List Bool) (acc : List Bool × Option Bool),
      halfBitsTaken (fed.foldl biphaseTake acc) = halfBitsTaken acc + fed.length := by
    intro fed
    induction fed with
    | nil => exact fun acc => rfl
    | cons b rest ih =>
      intro acc
      rw [List.foldl_cons, ih, halfBitsTaken_biphaseTake, List.length_cons, Nat.add_assoc, Nat.add_comm 1]
  simpa [halfBitsTaken, biphaseDecode] using hfold fed ([], none)

/-- Two half-bits make a bit. -/
theorem biphaseDecode_length (fed : List Bool) : (biphaseDecode fed).1.length = fed.length / 2 := by
  have htaken := halfBitsTaken_biphaseDecode fed
  have hheld : (biphaseDecode fed).2.toList.length ≤ 1 := Option.length_toList_le
  unfold halfBitsTaken at htaken
  omega

/-- A half-bit is held exactly after an odd number of them. -/
theorem biphaseDecode_isSome (fed : List Bool) : (biphaseDecode fed).2.isSome = decide (fed.length % 2 = 1) := by
  have htaken := halfBitsTaken_biphaseDecode fed
  unfold halfBitsTaken at htaken
  rcases Option.eq_none_or_eq_some (biphaseDecode fed).2 with hx | ⟨x, hx⟩ <;> rw [hx] at htaken ⊢
  · rw [Option.toList_none, List.length_nil] at htaken
    exact (decide_eq_false (by omega)).symm
  · rw [Option.toList_some, List.length_singleton] at htaken
    exact (decide_eq_true (by omega)).symm

/-- The two half-bits of a bit (R208). -/
theorem foldl_biphasePair (bits : List Bool) (level d : Bool) :
    (biphasePair level d).foldl biphaseTake (bits, none) = (bits ++ [d], none) := by
  have hbit : (level ^^ (level ^^ d)) = d := by rw [← Bool.xor_assoc, Bool.xor_self, Bool.false_xor]
  simp only [biphasePair, List.foldl_cons, List.foldl_nil, biphaseTake, hbit]

/-- R208: the half-bits of encoded bits decode to the bits, whatever the first levels are. -/
theorem biphaseDecode_pairs (pairs : List (Bool × Bool)) :
    biphaseDecode (pairs.flatMap fun p => biphasePair p.1 p.2) = (pairs.map Prod.snd, none) := by
  have hfold : ∀ (pairs : List (Bool × Bool)) (bits : List Bool),
      (pairs.flatMap fun p => biphasePair p.1 p.2).foldl biphaseTake (bits, none) = (bits ++ pairs.map Prod.snd, none) := by
    intro pairs
    induction pairs with
    | nil => exact fun bits => by simp
    | cons p rest ih =>
      intro bits
      rw [List.flatMap_cons, List.foldl_append, foldl_biphasePair, ih, List.map_cons, ← List.append_cons]
  exact hfold pairs []

/-- A BIPHASE frame in progress: the bits decoded from `fed` are placed, and the odd half-bit is held. -/
def BiphaseProgress (s : State) (spec : PatternSpec) (fed : List Bool) (u : State) : Prop :=
  MsbProgress s spec .dataBiphaseS (biphaseDecode fed).1 u ∧ u.half = (biphaseDecode fed).2

/-- A BIPHASE frame scheduled for publication. -/
def BiphaseScheduled (s : State) (spec : PatternSpec) (fed : List Bool) (u : State) : Prop :=
  MsbScheduled s spec (biphaseDecode fed).1 u

theorem BiphaseProgress.length_lt {s u : State} {spec : PatternSpec} {fed : List Bool}
    (h : BiphaseProgress s spec fed u) : fed.length < 2 * spec.frameLengthBits.toNat := by
  have hbits := h.1.unfinished
  rw [biphaseDecode_length] at hbits
  omega

theorem biphaseStep_of_none {s : State} (h : s.half = none) (spec : PatternSpec) (b : Bool) :
    biphaseStep spec b s = { s with half := some b } := by
  simp only [biphaseStep, h]

theorem biphaseStep_of_some {s : State} {x : Bool} (h : s.half = some x) (spec : PatternSpec) (b : Bool) :
    biphaseStep spec b s = completeIfFull spec (countBit (putBit spec (x ^^ b) { s with half := none })) := by
  simp only [biphaseStep, h]

theorem biphaseStep_frameAfter {s u : State} {spec : PatternSpec} {fed : List Bool} (h : BiphaseProgress s spec fed u)
    (b : Bool) (t : Word) :
    ∃ v, exec (.feed b t) u = .next v ∧
      FrameAfter (2 * spec.frameLengthBits.toNat) (BiphaseProgress s spec) (BiphaseScheduled s spec) (fed ++ [b]) v := by
  obtain ⟨hmsb, hhalf⟩ := h
  have htaken := halfBitsTaken_biphaseDecode (fed ++ [b])
  refine ⟨_, exec_feed_biphase t hmsb.pub hmsb.mode_eq hmsb.active (shiftWindow_isShift b u), ?_⟩
  rcases Option.eq_none_or_eq_some (biphaseDecode fed).2 with hx | ⟨x, hx⟩
  · have hdecode := biphaseDecode_append_of_none hx b
    rw [biphaseStep_of_none (s := { u with window := (shiftWindow b u).window }) (hhalf.trans hx)]
    have hnext : BiphaseProgress s spec (fed ++ [b])
        (respond .producer okResponse { u with window := (shiftWindow b u).window, half := some b }) := by
      rw [BiphaseProgress, hdecode]
      exact ⟨hmsb.window_half_respond _ (some b) (some okResponse), rfl⟩
    exact ⟨fun _ => hnext, fun heq => absurd heq (Nat.ne_of_lt hnext.length_lt)⟩
  · have hdecode := biphaseDecode_append_of_some hx b
    have hbit := (hmsb.window_half_respond (shiftWindow b u).window none u.producerResp).payloadBit (by decide) (x ^^ b)
    rw [biphaseStep_of_some (s := { u with window := (shiftWindow b u).window }) (hhalf.trans hx)]
    rw [hdecode] at htaken
    simp only [halfBitsTaken, Option.toList_none, List.length_nil] at htaken
    rw [FrameAfter, BiphaseProgress, BiphaseScheduled, hdecode]
    refine ⟨fun hlt => ?_, fun heq => hbit.2 (by omega)⟩
    obtain ⟨hkeep, hprogress⟩ := hbit.1 (by omega)
    rw [hkeep]
    exact ⟨hprogress.window_half_respond _ _ (some okResponse), rfl⟩

end Sys2Proof.Machine

open Sys2Proof Sys2Proof.Machine

/-- Settles O20, by induction on the FEEDs: each places its bit after those before it, and the last one schedules the publish. -/
theorem rawFrameRoundTrip : Obligations.RawFrameRoundTrip := by
  intro s i spec feeds hfresh hle
  obtain ⟨u, hrun, hprogress, hscheduled⟩ := feedAll_frameAfter (fun _ _ h => h.unfinished)
    (fun _ _ b t h => rawStep_frameAfter h b t) feeds [] s hfresh.msbProgress (by rwa [List.length_nil, Nat.zero_add])
  rw [List.nil_append, List.length_map] at hprogress hscheduled
  refine ⟨u, hrun, fun hlt => ?_, fun heq => ?_⟩
  · have h := hprogress hlt
    exact ⟨h.pub, h.mode_eq, by rw [h.count, List.length_map]⟩
  · obtain ⟨hmode, p, hp, -, -, hid, htime, hdata⟩ := hscheduled heq
    exact ⟨hmode, p, hp, hid, htime, hdata⟩

/-- Settles O22, by induction on the FEEDs: each half-bit is held, or makes with the one held a bit that is placed after those before
it; the half-bits of encoded bits decode to the bits. -/
theorem biphaseFrameRoundTrip : Obligations.BiphaseFrameRoundTrip := by
  intro s i spec feeds hfresh hle
  have hhalf : s.half = none := by
    obtain ⟨-, -, -, -, -, -, -, -, hhalf, -⟩ := hfresh
    exact hhalf
  obtain ⟨u, hrun, hprogress, hscheduled⟩ := feedAll_frameAfter (fun _ _ h => h.length_lt)
    (fun _ _ b t h => biphaseStep_frameAfter h b t) feeds [] s ⟨hfresh.msbProgress, hhalf⟩
    (by rwa [List.length_nil, Nat.zero_add])
  rw [List.nil_append, List.length_map] at hprogress hscheduled
  refine ⟨u, hrun, fun hlt => ?_, fun heq => ?_⟩
  · obtain ⟨hmsb, hheld⟩ := hprogress hlt
    refine ⟨hmsb.pub, hmsb.mode_eq, ?_, ?_⟩
    · rw [hheld, biphaseDecode_isSome, List.length_map]
    · rw [hmsb.count, biphaseDecode_length, List.length_map]
  · obtain ⟨hmode, p, hp, hchecked, hpending, hid, htime, hdata⟩ := hscheduled heq
    refine ⟨hmode, p, hp, hchecked, hpending, hid, htime, fun hsub hz => ?_⟩
    obtain ⟨hparam, hholds⟩ := hdata hsub hz
    refine ⟨hparam, fun pairs hpairs => ?_⟩
    rwa [hpairs, biphaseDecode_pairs] at hholds
end

section
/-! SUPPORT. Proofs about turns (60_exceptions.md R320 to R322), and about single FEEDs: the match (40_correlator.md R164, R165), the
completion of every FEED (R160, R168), and the framing bits of a UART character (41_collector.md R200 to R203). -/

namespace Sys2Proof.Machine

/-- R165: the match of an entry whose frame has a length. -/
theorem matchPattern_of_length {spec : PatternSpec} (h : spec.frameLengthBits ≠ 0) (i : Nat) (t : Word) (s : State) :
    matchPattern i spec t s = startFrame i spec t s :=
  if_neg h

/-! ### What a FEED leaves of the window and of `rxTimeLatch` after the shift -/

theorem huntStep_window (t : Word) (s : State) : (huntStep t s).window = s.window := by
  rcases huntStep_cases t s with h | ⟨j, spec, -, -, h | h⟩ <;> rw [h] <;> rfl

/-- The collector shifts nothing and latches nothing (R168). -/
def KeepsWindowAndTime (s u : State) : Prop := u.window = s.window ∧ u.rxTimeLatch = s.rxTimeLatch

theorem completeIfFull_keepsWindowAndTime (spec : PatternSpec) (s : State) :
    KeepsWindowAndTime s (completeIfFull spec s) := by
  unfold completeIfFull
  split <;> exact ⟨rfl, rfl⟩

theorem uartStep_keepsWindowAndTime (spec : PatternSpec) (b : Bool) (s : State) :
    KeepsWindowAndTime s (uartStep spec b s) := by
  unfold uartStep
  split
  · exact ⟨rfl, rfl⟩
  split
  · unfold uartData
    split <;> exact ⟨rfl, rfl⟩
  · unfold uartStop
    dsimp only
    split <;> exact ⟨rfl, rfl⟩

theorem collect_keepsWindowAndTime (spec : PatternSpec) (b : Bool) (s : State) :
    KeepsWindowAndTime s (collect spec b s) := by
  unfold collect
  split
  · exact ⟨rfl, rfl⟩
  · exact completeIfFull_keepsWindowAndTime spec (countBit (putBit spec b s))
  · exact uartStep_keepsWindowAndTime spec b s
  · unfold biphaseStep
    split
    · exact ⟨rfl, rfl⟩
    · exact completeIfFull_keepsWindowAndTime spec (countBit (putBit spec _ { s with half := none }))

/-- R203: the stop bit counts a 0, as the start bit counts a 1. -/
theorem framingErrCount_of_stopBit (b : Bool) (n : Word) :
    (if b then n else n + 1) = if (!b) = true then n + 1 else n := by
  cases b <;> rfl

end Sys2Proof.Machine

open Sys2Proof Sys2Proof.Machine

/-- Settles O6, by the laws of a turn that takes a word, and of a turn with nothing to do. -/
theorem stepRunsTheDecodedInstruction : Obligations.StepRunsTheDecodedInstruction := by
  intro s k w i rest ws
  refine ⟨fun ht hp hw hd hi => ?_, fun ht hw hd hi => ?_, step_producer_idle s k rest, step_consumer_idle s rest,
    step_idle s⟩
  · rw [step_producer s k rest w ws ht hp hw, runWord_ok _ w i _ hd hi]
  · rw [step_consumer s rest w ws ht hw, runWord_ok _ w i _ hd hi]

/-- Settles O7: the turn is a publish event, which changes POOL, `pub` and `overrunCount` alone, and so is the held transaction. -/
theorem pendingPublishHoldsTheProducer : Obligations.PendingPublishHoldsTheProducer := by
  refine fun s p hp => ⟨fun k rest ht => ?_, fun i hi k rest ht => ?_⟩
  · exact ⟨_, _, _, (step_publish s k rest p ht hp).trans (congrArg _ (publishEvent_frame k p _))⟩
  · rw [step_publish s k rest p ht hp]
    exact exec_held i { s with turns := rest, pick := k } p hp hi

/-- Settles O8: a consumer transaction always answers. -/
theorem consumerNeverWaits : Obligations.ConsumerNeverWaits := by
  intro s w i rest ws ht hw hd hi
  obtain ⟨m, r, hexec, -⟩ := exec_consumer i { s with turns := rest, consumerIn := ws } hi
  refine ⟨m, r, ?_⟩
  rw [step_consumer s rest w ws ht hw, runWord_ok _ w i _ hd hi, hexec]

/-- Settles O11: the compare on the shifted window finds entry i, whose frame starts. -/
theorem firstMatchingEntryStartsAFrame : Obligations.FirstMatchingEntryStartsAFrame := by
  intro s b t w i spec hp hm hw hi hd hb hlen
  refine ⟨drawBuffer s.draws, ?_⟩
  rw [exec_feed_hunt s b t hp hm, shiftWindow_eq hw, huntStep_of_firstMatch t { s with window := w } i spec hi hd hb,
    matchPattern_of_length hlen]
  rfl

/-- Settles O13: with invariant 1 a FEED is the shift, then the compare or the collector, then the response; neither of the two
touches the window or the table, and the collector does not touch `rxTimeLatch`. -/
theorem feedCompletesInEveryMode : Obligations.FeedCompletesInEveryMode := by
  intro s b t hp hactive
  by_cases hm : s.mode = .hunt
  · have hexec := exec_feed_hunt s b t hp hm
    refine ⟨_, hexec, ?_, rfl, (exec_feed_frame s _ b t hp hexec).table, fun hne => absurd hm hne⟩
    rw [respond_window, huntStep_window]
    exact shiftWindow_isShift b s
  · obtain ⟨spec, ha, -⟩ := hactive.activeSpec hm
    have hexec := exec_feed_collect s b t spec hp hm ha
    obtain ⟨hwindow, htime⟩ := collect_keepsWindowAndTime spec b (shiftWindow b s)
    refine ⟨_, hexec, ?_, rfl, (exec_feed_frame s _ b t hp hexec).table, fun _ => htime⟩
    rw [respond_window, hwindow]
    exact shiftWindow_isShift b s

/-- Settles O14, by the law of a FEED with no installed active entry. -/
theorem feedWithoutAnActivePatternFaults : Obligations.FeedWithoutAnActivePatternFaults :=
  exec_feed_noActive

/-- Settles O16: at phase 0 the FEED is the start bit of a character. -/
theorem uartStartBit : Obligations.UartStartBit := by
  intro s b t w spec hp hm ha hw hphase
  rw [exec_feed_uart t hp hm ha hw, uartStep_of_startBit (s := { s with window := w }) (congrArg Fin.val hphase)]
  rfl

/-- Settles O18: at phase 9 the FEED is the stop bit of a character, in a frame with bits to come or with none. -/
theorem uartStopBit : Obligations.UartStopBit := by
  intro s b t w spec framing hp hm ha hw hphase hframing
  have hexec := exec_feed_uart t hp hm ha hw
  rw [uartStep_of_stopBit (s := { s with window := w }) (congrArg Fin.val hphase)] at hexec
  rw [framingErrCount_of_stopBit] at hframing
  subst hframing
  refine ⟨fun hlt => ?_, fun hle => ?_⟩
  · rw [hexec, uartStop_of_lt (s := { s with window := w }) hlt]
    rfl
  · rw [hexec, uartStop_of_le (s := { s with window := w }) hle]
    exact ⟨_, _, allFieldWrites, _, hookGives_hook spec s.stage s.curParam s.rxTimeLatch, allFieldWrites_complete,
      completedFrom_completeFrame spec { countFraming (!b) { s with window := w } with uartPhase := 0 }, rfl⟩
end

section
/-! SUPPORT. Proofs about the host registers and the commands (43_configuration.md R270 to R290): what each offset reads, which writes
have no effect, what OPEN, CONFIGURE and nothing else changes. -/

namespace Sys2Proof.Machine

/-! ### Offsets that name no writable register (R270, R79) -/

/-- Only offset 0x000 is CMD (R61). -/
theorem hostReg_ne_cmd {off : BitVec 12} (h : off ≠ 0) (npatMax : Nat) : hostReg npatMax off ≠ .cmd := by
  have step {c : Prop} [Decidable c] {a b : HostReg} (ha : a ≠ .cmd) (hb : b ≠ .cmd) : (if c then a else b) ≠ .cmd := by
    split
    · exact ha
    · exact hb
  rw [hostReg, if_neg h]
  iterate 17 refine step (by nofun) ?_
  nofun

/-- A write has an effect on CMD and on STAGE alone (R270). -/
theorem writeReg_of_ne {r : HostReg} (hcmd : r ≠ .cmd) (hstage : ∀ i w, r ≠ .stage i w) (v : Word) (s : State) :
    writeReg v s r = s := by
  cases r with
  | cmd => exact absurd rfl hcmd
  | stage i w => exact absurd rfl (hstage i w)
  | _ => rfl

/-- From the end of STAGE on every offset is reserved (R79). -/
theorem hostReg_of_stageEnd_le {npatMax : Nat} {off : BitVec 12} (h : 0x100 + 0x20 * npatMax ≤ off.toNat) :
    hostReg npatMax off = .reserved := by
  rw [hostReg_high npatMax off (by omega), if_neg (Nat.not_lt.2 h)]

/-- Between RXTIME and STAGE every aligned offset is reserved (R79). -/
theorem hostReg_of_gap (npatMax : Nat) {off : BitVec 12} (hlo : 0x044 ≤ off.toNat) (hhi : off.toNat < 0x100) :
    hostReg npatMax off = .reserved := by
  have step {c : BitVec 12} {a b : HostReg} (hc : c.toNat < 0x044) (hb : b = .reserved) :
      (if off = c then a else b) = .reserved := by
    rw [if_neg (by rintro rfl; omega), hb]
  rw [hostReg]
  iterate 17 refine step (by decide) ?_
  rw [if_neg (by omega)]

/-! ### What a register reads (R61 to R79) -/

/-- A register's word is what every REG_READ of its offset answers (R271). -/
theorem readsAs_of_hostReg {off : BitVec 12} {r : HostReg} {word : State → Nat} (haligned : off.toNat % 4 = 0)
    (hreg : ∀ npatMax, hostReg npatMax off = r) (hword : ∀ s, (regValue s r).toNat = word s) : ReadsAs off word := by
  intro s hp
  refine ⟨regValue s r, hword s, ?_⟩
  rw [exec_regRead off s hp haligned, hreg]
  rfl

/-- Fields side by side as a number. -/
theorem toNat_append_eq_mul_add {n m : Nat} (hi : BitVec n) (lo : BitVec m) :
    (hi ++ lo).toNat = hi.toNat * 2 ^ m + lo.toNat := by
  rw [BitVec.toNat_append, ← Nat.shiftLeft_add_eq_or_of_lt lo.isLt, Nat.shiftLeft_eq]

/-- A number zero-extended. -/
theorem toNat_zero_append {n m : Nat} (x : BitVec m) : (0#n ++ x).toNat = x.toNat := by
  rw [toNat_append_eq_mul_add, BitVec.toNat_zero, Nat.zero_mul, Nat.zero_add]

theorem cfgStatusWord_toNat (c : CfgStatus) :
    (cfgStatusWord c).toNat = c.result.code.toNat + 0x10 * c.cause.code.toNat + 0x100 * c.entry.toNat := by
  simp only [cfgStatusWord, toNat_append_eq_mul_add, BitVec.toNat_zero]
  omega

theorem modeWord_toNat (mode : Mode) (act : Option Nat) :
    (modeWord mode act).toNat = mode.code.toNat + match act with
      | some i => 0x100 * (i % 0x100) + 0x10000
      | none => 0 := by
  simp only [modeWord, toNat_append_eq_mul_add, BitVec.toNat_ofNat, BitVec.toNat_ofBool]
  cases act with
  | none => simp
  | some i =>
    simp
    omega

theorem phaseWord_toNat (phase : Fin 10) (half : Option Bool) :
    (phaseWord phase half).toNat = phase.val + match half with
      | some true => 0x300
      | some false => 0x100
      | none => 0 := by
  have hphase : phase.val < 16 := phase.isLt.trans (by decide)
  simp only [phaseWord, toNat_append_eq_mul_add, BitVec.toNat_ofNat, BitVec.toNat_ofBool]
  rcases half with _ | _ | _
  all_goals
    simp
    omega

theorem faultWord_toNat (fault : Bool) : (faultWord fault).toNat = if fault then 1 else 0 := by
  cases fault <;> rfl

theorem readsAs_cfgStatus : ReadsAs 0x004 fun s =>
    s.cfgStatus.result.code.toNat + 0x10 * s.cfgStatus.cause.code.toNat + 0x100 * s.cfgStatus.entry.toNat :=
  readsAs_of_hostReg (r := .cfgStatus) (by decide) (fun _ => rfl) fun s => cfgStatusWord_toNat s.cfgStatus

/-! ### CONFIGURE with a failing descriptor (R278, R286) -/

theorem configure_of_firstFailing {s : State} {count : Byte} {i : Nat} (hc : count.toNat ≤ s.params.npatMax)
    (hi : i < count.toNat) (hfail : firstFailingCheck (decodeDescriptor (s.sdescWord i)) ≠ .none)
    (hpass : ∀ j, j < i → firstFailingCheck (decodeDescriptor (s.sdescWord j)) = .none) :
    configure count s = rejectConfig (firstFailingCheck (decodeDescriptor (s.sdescWord i))) i s := by
  have hfirst : firstRejected 0 (stagedSpecs s count.toNat) =
      some (i, firstFailingCheck (decodeDescriptor (s.sdescWord i))) := by
    refine (firstRejected_some _ _ _ _).2
      ⟨Nat.zero_le i, ⟨_, stagedSpecs_getElem? s _ i hi, rfl⟩, hfail, fun j q hj hq => ?_⟩
    rw [Nat.sub_zero] at hj
    rw [stagedSpecs_getElem? s _ j (hj.trans hi)] at hq
    exact Option.some.inj hq ▸ hpass j hj
  rw [configure, if_neg (Nat.not_lt.2 hc), hfirst]

/-- The state after a rejected CONFIGURE (R286). -/
theorem exec_cmdConfigure_of_firstFailing {s : State} {count : Byte} {i : Nat} (hp : s.pub = none)
    (hc : count.toNat ≤ s.params.npatMax) (hi : i < count.toNat)
    (hfail : firstFailingCheck (decodeDescriptor (s.sdescWord i)) ≠ .none)
    (hpass : ∀ j, j < i → firstFailingCheck (decodeDescriptor (s.sdescWord j)) = .none) :
    exec (.cmdConfigure count) s = .next { s with
      cfgStatus := ⟨.rejected, firstFailingCheck (decodeDescriptor (s.sdescWord i)), BitVec.ofNat 8 i⟩
      producerResp := some ⟨.ok, 0⟩ } := by
  rw [exec_cmdConfigure count s hp, configure_of_firstFailing hc hi hfail hpass]
  rfl

/-! ### Which transactions change the table and `fault` (R34, R314) -/

/-- A CONFIGURE that changes the table reports ACCEPTED, and none clears `fault`. -/
theorem configure_table_fault (count : Byte) (s : State) :
    ((configure count s).table ≠ s.table → (configure count s).cfgStatus.result = .accepted) ∧
    (configure count s).fault = s.fault := by
  rcases configure_cases count s with ⟨cause, entry, -, h⟩ | ⟨-, -, h⟩ <;> rw [h]
  · exact ⟨fun hne => absurd rfl hne, rfl⟩
  · exact ⟨fun _ => rfl, rfl⟩

/-- A consumer's transaction or a held one changes neither. -/
theorem exec_table_fault_of_not_free {s u : State} {i : Instr} (h : exec i s = .next u)
    (hfree : ¬ (i.agent = .producer ∧ s.pub = none)) : u.table = s.table ∧ u.fault = s.fault := by
  cases hi : i.agent with
  | consumer =>
    obtain ⟨m, r, hx, -⟩ := exec_consumer i s hi
    rw [hx] at h
    cases h
    exact ⟨rfl, rfl⟩
  | producer =>
    obtain ⟨p, hp⟩ := Option.ne_none_iff_exists'.1 fun hp => hfree ⟨hi, hp⟩
    rw [exec_held i s p hp hi, publishEvent_frame] at h
    cases h
    exact ⟨rfl, rfl⟩

end Sys2Proof.Machine

open Sys2Proof Sys2Proof.Machine

/-- Settles O36: such an offset names neither CMD nor a STAGE word. -/
theorem writesToOtherRegistersAreIgnored : Obligations.WritesToOtherRegistersAreIgnored := by
  intro s off v hp haligned h0 hout
  have hstage (i w : Nat) : hostReg s.params.npatMax off ≠ .stage i w := by
    rcases hout with hlow | hend
    · exact hostReg_low _ off hlow i w
    · rw [hostReg_of_stageEnd_le hend]
      nofun
  rw [exec_regWrite off v s hp haligned, writeReg_of_ne (hostReg_ne_cmd h0 _) hstage]
  rfl

/-- Settles O38: each offset names its register, and the word of each as a number. -/
theorem statusRegistersReadAsListed : Obligations.StatusRegistersReadAsListed := by
  refine ⟨?cmd, readsAs_cfgStatus, ?patCount, ?mode, ?bitCount, ?subCount, ?cursor, ?phase⟩
  case cmd => exact readsAs_of_hostReg (r := .cmd) (by decide) (fun _ => rfl) fun _ => rfl
  case patCount =>
    exact readsAs_of_hostReg (r := .patCount) (by decide) (fun _ => rfl) fun s =>
      (toNat_zero_append _).trans (BitVec.toNat_ofNat ..)
  case mode =>
    exact readsAs_of_hostReg (r := .mode) (by decide) (fun _ => rfl) fun s => modeWord_toNat s.mode s.act
  case bitCount => exact readsAs_of_hostReg (r := .bitCount) (by decide) (fun _ => rfl) fun s => toNat_zero_append s.bitCount
  case subCount => exact readsAs_of_hostReg (r := .subCount) (by decide) (fun _ => rfl) fun s => toNat_zero_append s.subCount
  case cursor => exact readsAs_of_hostReg (r := .cursor) (by decide) (fun _ => rfl) fun s => toNat_zero_append s.base
  case phase =>
    exact readsAs_of_hostReg (r := .phase) (by decide) (fun _ => rfl) fun s => phaseWord_toNat s.uartPhase s.half

/-- Settles O39: each offset names its register; a word of the window is its bit field. -/
theorem windowAndCountersReadAsListed : Obligations.WindowAndCountersReadAsListed := by
  refine ⟨?win0, ?win1, ?win2, ?win3, ?writeIndex, ?overrunCount, ?framingErrCount, ?fault, ?rxTime⟩
  case win0 =>
    exact readsAs_of_hostReg (r := .win0) (by decide) (fun _ => rfl) fun s => extractLsb'_zero_toNat s.window 32
  case win1 =>
    exact readsAs_of_hostReg (r := .win1) (by decide) (fun _ => rfl) fun s => extractLsb'_toNat_eq_div_mod s.window 32 32
  case win2 =>
    exact readsAs_of_hostReg (r := .win2) (by decide) (fun _ => rfl) fun s => extractLsb'_toNat_eq_div_mod s.window 64 32
  case win3 =>
    exact readsAs_of_hostReg (r := .win3) (by decide) (fun _ => rfl) fun s => extractLsb'_toNat_eq_div_mod s.window 96 32
  case writeIndex => exact readsAs_of_hostReg (r := .writeIndex) (by decide) (fun _ => rfl) fun _ => rfl
  case overrunCount => exact readsAs_of_hostReg (r := .overrunCount) (by decide) (fun _ => rfl) fun _ => rfl
  case framingErrCount => exact readsAs_of_hostReg (r := .framingErrCount) (by decide) (fun _ => rfl) fun _ => rfl
  case fault => exact readsAs_of_hostReg (r := .fault) (by decide) (fun _ => rfl) fun s => faultWord_toNat s.fault
  case rxTime => exact readsAs_of_hostReg (r := .rxTime) (by decide) (fun _ => rfl) fun _ => rfl

/-- Settles O40: the offset of a STAGE word names it, and the others are reserved. -/
theorem stageAndReservedOffsetsRead : Obligations.StageAndReservedOffsetsRead := by
  refine fun s hp ⟨_, hn⟩ => ⟨fun i w hi hw => ?_, fun off haligned hout => ?_⟩
  · have haligned : (BitVec.ofNat 12 (0x100 + 0x20 * i + 4 * w)).toNat % 4 = 0 := by
      rw [BitVec.toNat_ofNat]
      omega
    rw [exec_regRead _ s hp haligned, hostReg_stage _ i w hn hi hw]
    rfl
  · have hreserved : hostReg s.params.npatMax off = .reserved := by
      rcases hout with ⟨hlo, hhi⟩ | hend
      · exact hostReg_of_gap _ hlo hhi
      · exact hostReg_of_stageEnd_le hend
    rw [exec_regRead off s hp haligned, hreserved]
    rfl

/-- Settles O44: the state of `machineReset`, whose POOL differs from the old one in the `valid` bytes alone. -/
theorem openResets : Obligations.OpenResets :=
  fun s hp => ⟨clearAllValid s.pool, drawBuffer s.draws, exec_cmdOpen s hp, fun k => machineReset_slotValid s k,
    fun a ha => machineReset_readByte s a ha⟩

/-- Settles O48: the first entry that fails, with the cause of its first failing check. -/
theorem firstFailingEntryRejectsTheTable : Obligations.FirstFailingEntryRejectsTheTable := by
  intro s count i entry hp hc hi hentry hfail hpass
  have hofNat : BitVec.ofNat 8 i = entry := by rw [← hentry, BitVec.ofNat_toNat, BitVec.setWidth_eq]
  rw [exec_cmdConfigure_of_firstFailing hp hc hi hfail hpass, hofNat]

/-- Settles O50: 200 bits fail the first check, and CFG_STATUS reads the three fields of the rejection. -/
theorem lengthTwoHundredIsRejected : Obligations.LengthTwoHundredIsRejected := by
  intro s count i hp hc hi hlen hpass
  have hcause : firstFailingCheck (decodeDescriptor (s.sdescWord i)) = .lengthTooLong := by
    rw [firstFailingCheck_eq_lengthTooLong_iff, lengthTooLong_iff, hlen]
    decide
  have hexec := exec_cmdConfigure_of_firstFailing hp hc hi (by rw [hcause]; nofun) hpass
  rw [hcause] at hexec
  obtain ⟨r, hr, hread⟩ := readsAs_cfgStatus { s with
    cfgStatus := ⟨.rejected, .lengthTooLong, BitVec.ofNat 8 i⟩, producerResp := some ⟨.ok, 0⟩ } hp
  have hcount := count.isLt
  have hword : r = BitVec.ofNat 32 (0x22 + 0x100 * i) := by
    apply BitVec.eq_of_toNat_eq
    rw [hr, BitVec.toNat_ofNat, Nat.mod_eq_of_lt (by omega)]
    show 2 + 0x10 * 2 + 0x100 * (BitVec.ofNat 8 i).toNat = _
    rw [BitVec.toNat_ofNat, Nat.mod_eq_of_lt (by omega)]
  exact ⟨_, _, hexec, rfl, rfl, rfl, hread, hword ▸ rfl⟩

/-- Settles O53: only a producer transaction that is not held can change either; a FEED changes no table and clears no `fault`, and
of the others only OPEN and CONFIGURE are left. -/
theorem onlyConfigureAndOpenChangeTheTable : Obligations.OnlyConfigureAndOpenChangeTheTable := by
  intro s u i h hwf
  have hkeeps (ht : u.table = s.table) (hf : s.fault = true → u.fault = true) :
      (u.table ≠ s.table → i = .cmdOpen ∨ ∃ count, i = .cmdConfigure count ∧ u.cfgStatus.result = .accepted) ∧
      (s.fault = true → u.fault = false → i = .cmdOpen) :=
    ⟨fun hne => absurd ht hne, fun hs hu => absurd (hf hs) (by rw [hu]; decide)⟩
  by_cases hfree : i.agent = .producer ∧ s.pub = none
  · obtain ⟨hi, hp⟩ := hfree
    rcases exec_producer i s u hi hp h with ⟨b, t, rfl⟩ | ⟨r, x, rfl, hc⟩
    · have hframe := exec_feed_frame s u b t hp h
      exact hkeeps hframe.table hframe.fault
    · rcases hc with ⟨off, v, -, -, rfl | ⟨j, w, -, -, rfl⟩⟩ | ⟨v, rfl, -⟩ | ⟨rfl, -⟩ | ⟨count, rfl, rfl⟩ | rfl | rfl
      · exact hkeeps rfl id
      · exact hkeeps rfl id
      · exact absurd hwf Bool.false_ne_true
      · exact ⟨fun _ => .inl rfl, fun _ _ => rfl⟩
      · obtain ⟨htable, hfault⟩ := configure_table_fault count s
        refine ⟨fun hne => .inr ⟨count, rfl, htable hne⟩, fun hs hu => absurd (hfault.trans hs) ?_⟩
        rw [respond_fault] at hu
        rw [hu]
        decide
      · exact hkeeps rfl id
      · exact hkeeps rfl id
  · obtain ⟨htable, hfault⟩ := exec_table_fault_of_not_free h hfree
    exact hkeeps htable fun hs => hfault.trans hs
end
